-- ==== Sys2Proof/Word.lean ====
section
/-! DEFINITION. The widths of the bus: 32-bit data, 8-bit descriptors and byte lanes (decision D2, R5, R27). -/

namespace Sys2Proof

/-- A register, a data beat, an epoch-seconds count: 32 bits, unsigned (R4, R5). -/
abbrev Word := BitVec 32

/-- A byte lane of a register, or a transaction's descriptor (R27, R40). -/
abbrev Byte := BitVec 8

end Sys2Proof
end

