-- ==== Sys2Proof/Config.lean ====
section
/-! DEFINITION. What the spec leaves OPEN (R4) and the values it leaves free (R7). Each is a constant with no body:
nothing in Lean can evaluate it, so a theorem about the model holds whatever its value is. -/

namespace Sys2Proof.Config

/-- DESIGN CHOICE (log 9): which 32-byte window of the host's address space is the block's. -/
opaque windowIndex : Nat

/-- `GCC_BASE`, an OPEN parameter and a multiple of 32 (R4, R25). -/
def gccBase : Nat := 32 * windowIndex

/-- DESIGN CHOICE (log 4): the n-th draw of `any32`, "an arbitrary 32-bit value, a draw with no law" (R7). -/
opaque any32 : Nat → Word

/-- DESIGN CHOICE (log 3): `CONV_LATENCY`, an OPEN parameter, "finite for every input", which "may depend on the input
and on the implementation" (R4). Counted in turns of the host; the second argument is the draw number, so that two
conversions of one input may take different times. -/
opaque convLatency : Word → Nat → Nat

/-- DESIGN CHOICE (log 18): what a host variable holds before its first assignment, which R47 does not say. -/
opaque unsetVariable : Nat → Word

end Sys2Proof.Config
end

