-- ==== Sys2Proof/Syntax.lean ====
section
/-! DEFINITION. Transactions (R40, R41) and the six supported operations (R44), one constructor per row of
spec/opcode_table.json. -/

namespace Sys2Proof

/-- Access size, descriptor bits 6:5 (R41). -/
inductive Size where
  | byte
  | half
  | word
  | reserved
deriving DecidableEq, Repr

/-- The fields of a descriptor (R40): W is bit 7, SIZE bits 6:5, OFFSET bits 4:0. -/
structure Descriptor where
  write  : Bool
  size   : Size
  offset : BitVec 5
deriving DecidableEq, Repr

/-- A bus access as it reaches the block (R40): the descriptor and the data beat the host drives.
The beat is WDATA on a write and carries nothing on a read (log 21). -/
structure Transaction where
  desc  : Byte
  wdata : Word
deriving DecidableEq, Repr

/-- The six supported operations (R44). Only WR_EPOCH has an operand, WDATA[31:0] (R42, R74). -/
inductive Instr where
  /-- RD_EPOCH (R73) -/
  | rdEpoch
  /-- WR_EPOCH (R74) -/
  | wrEpoch (wdata : Word)
  /-- RD_STATUS (R75) -/
  | rdStatus
  /-- RD_DATE (R76) -/
  | rdDate
  /-- RD_TIME (R77) -/
  | rdTime
  /-- RD_DAYINFO (R78) -/
  | rdDayinfo
deriving DecidableEq, Repr

end Sys2Proof
end

