-- ==== Sys2Proof/WellFormed.lean ====
section
/-! DEFINITION. Which instructions and which descriptors are well formed. The checks on a descriptor are R28's prose,
written without looking at the opcode map of R44; an obligation says the two agree. -/

namespace Sys2Proof

/-- Every term of `Instr` is an operation of the block: WDATA has 32 bits by its type and "every value is legal"
(R14, R62). -/
def Instr.wellFormed (i : Instr) : Bool :=
  match i with
  | .rdEpoch => true
  | .wrEpoch _ => true
  | .rdStatus => true
  | .rdDate => true
  | .rdTime => true
  | .rdDayinfo => true

/-- "A 32-bit word access" (R28, R41). -/
def Descriptor.sizeIsWord (d : Descriptor) : Bool := d.size == .word

/-- "At an offset that is a multiple of 4" (R28). -/
def Descriptor.offsetIsAligned (d : Descriptor) : Bool := d.offset.toNat % 4 == 0

/-- Not "an access to a reserved offset (0x14 to 0x1F)" (R28, R31). -/
def Descriptor.offsetIsRegister (d : Descriptor) : Bool := d.offset.toNat < 0x14

/-- Not "a write to STATUS, DATE, TIME or DAYINFO" (R28): EPOCH, at offset 0, is the only writable register (R13). -/
def Descriptor.accessIsPermitted (d : Descriptor) : Bool := !d.write || d.offset.toNat == 0

/-- A supported access as R28 describes it. -/
def Descriptor.supported (d : Descriptor) : Bool :=
  d.sizeIsWord && d.offsetIsAligned && d.offsetIsRegister && d.accessIsPermitted

end Sys2Proof
end

