-- ==== Sys2Proof/Decode.lean ====
section
/-! DEFINITION. Decoding a transaction (R40 to R46), naming the class of an unsupported one (R45), the encoder,
and the host-side names of a transaction (R7). -/

namespace Sys2Proof

/-- SIZE, descriptor bits 6:5 (R41). -/
def Size.ofBits (b : BitVec 2) : Size :=
  match b.toNat with
  | 0 => .byte
  | 1 => .half
  | 2 => .word
  | _ => .reserved

/-- The bits of SIZE (R41). -/
def Size.toBits : Size → BitVec 2
  | .byte => 0b00#2
  | .half => 0b01#2
  | .word => 0b10#2
  | .reserved => 0b11#2

/-- The fields of a descriptor byte (R40). -/
def Descriptor.ofByte (b : Byte) : Descriptor :=
  { write := b.getLsbD 7, size := Size.ofBits (b.extractLsb' 5 2), offset := b.extractLsb' 0 5 }

/-- The descriptor byte of the fields (R40). -/
def Descriptor.toByte (d : Descriptor) : Byte :=
  BitVec.ofBool d.write ++ d.size.toBits ++ d.offset

/-- The classes of unsupported descriptors, in the order of R45's table. -/
inductive UnsupportedClass where
  | writeToReadOnly
  | reservedOffset
  | misalignedWord
  | subWord
  | reservedSize
deriving DecidableEq, Repr

/-- Which descriptors a row of R45's table takes in. The rows overlap. -/
def UnsupportedClass.contains (c : UnsupportedClass) (d : Descriptor) : Bool :=
  match c with
  | .writeToReadOnly => d.write && d.size == .word && [0x04, 0x08, 0x0C, 0x10].contains d.offset.toNat
  | .reservedOffset => 0x14 ≤ d.offset.toNat && d.offset.toNat ≤ 0x1F
  | .misalignedWord => d.size == .word && d.offset.toNat % 4 != 0
  | .subWord => d.size == .byte || d.size == .half
  | .reservedSize => d.size == .reserved

/-- DESIGN CHOICE (log 20): the name of an unsupported descriptor is the first row of R45's table that takes it in. -/
def UnsupportedClass.ofDescriptor (d : Descriptor) : UnsupportedClass :=
  ([.writeToReadOnly, .reservedOffset, .misalignedWord, .subWord].find? (fun c => c.contains d)).getD .reservedSize

/-- What decoding gives: one of the six operations, or the class of an unsupported access. -/
inductive Decoded where
  | operation (i : Instr)
  | unsupported (c : UnsupportedClass)
deriving DecidableEq, Repr

/-- The opcode map (R44, R72), total on every transaction. WR_EPOCH takes its operand whole from the beat (R42). -/
def decode (t : Transaction) : Decoded :=
  match t.desc.toNat with
  | 0x40 => .operation .rdEpoch
  | 0xC0 => .operation (.wrEpoch t.wdata)
  | 0x44 => .operation .rdStatus
  | 0x48 => .operation .rdDate
  | 0x4C => .operation .rdTime
  | 0x50 => .operation .rdDayinfo
  | _ => .unsupported (UnsupportedClass.ofDescriptor (Descriptor.ofByte t.desc))

/-- The operation of a transaction, where it is one of the six. -/
def Decoded.toOption : Decoded → Option Instr
  | .operation i => some i
  | .unsupported _ => none

/-- The descriptor of each operation, from its W, SIZE and OFFSET (R13, R40, R44). -/
def descriptorOf (i : Instr) : Descriptor :=
  match i with
  | .rdEpoch => { write := false, size := .word, offset := 0x00#5 }
  | .wrEpoch _ => { write := true, size := .word, offset := 0x00#5 }
  | .rdStatus => { write := false, size := .word, offset := 0x04#5 }
  | .rdDate => { write := false, size := .word, offset := 0x08#5 }
  | .rdTime => { write := false, size := .word, offset := 0x0C#5 }
  | .rdDayinfo => { write := false, size := .word, offset := 0x10#5 }

/-- The data beat the host drives: WDATA for the write (R42). A read's beat carries nothing; 0 (log 21). -/
def beatOf (i : Instr) : Word :=
  match i with
  | .wrEpoch v => v
  | .rdEpoch => 0#32
  | .rdStatus => 0#32
  | .rdDate => 0#32
  | .rdTime => 0#32
  | .rdDayinfo => 0#32

/-- The operation is one of the five reads: W = 0 (R40, R44). -/
def Instr.isRead (i : Instr) : Bool :=
  match i with
  | .rdEpoch => true
  | .wrEpoch _ => false
  | .rdStatus => true
  | .rdDate => true
  | .rdTime => true
  | .rdDayinfo => true

/-- The transaction of an operation. -/
def encode (i : Instr) : Transaction :=
  { desc := (descriptorOf i).toByte, wdata := beatOf i }

/-- DESIGN CHOICE (log 8): one descriptor and one data beat (R46) laid out as 40 bits: the descriptor in bits 7:0, the
beat in bits 39:8. -/
def Transaction.ofBits (w : Nat) : Transaction :=
  { desc := BitVec.ofNat 8 w, wdata := BitVec.ofNat 32 (w / 2 ^ 8) }

/-- The 40 bits of a transaction (log 8). -/
def Transaction.toBits (t : Transaction) : Nat := t.desc.toNat + 2 ^ 8 * t.wdata.toNat

/-- The 40 bits of an operation. -/
def encodeBits (i : Instr) : Nat := (encode i).toBits

/-- The transaction whose lowest `nbits` bits are those of `w`, every bit above them 0. -/
def Transaction.ofTableWord (nbits w : Nat) : Transaction := Transaction.ofBits (w % 2 ^ nbits)

/-- What the decoder reads from a row of spec/opcode_table.json. -/
def decodeTableWord (nbits w : Nat) : Option Instr :=
  (decode (Transaction.ofTableWord nbits w)).toOption

/-- `off = addr - GCC_BASE` (R26, R40); none for an address outside the window, which "is not a transaction of this
block" (R40). -/
def windowOffset (addr : Nat) : Option (BitVec 5) :=
  if Config.gccBase ≤ addr ∧ addr < Config.gccBase + 32 then some (BitVec.ofNat 5 (addr - Config.gccBase)) else none

/-- A host read of `size` at a host address (MemRead of R7; R40): the transaction it is, if the address is the
block's. -/
def Transaction.read (size : Size) (addr : Nat) : Option Transaction :=
  (windowOffset addr).map fun off =>
    { desc := ({ write := false, size := size, offset := off } : Descriptor).toByte, wdata := 0#32 }

/-- A host write of `size` at a host address (MemWrite of R7; R40). -/
def Transaction.write (size : Size) (addr : Nat) (v : Word) : Option Transaction :=
  (windowOffset addr).map fun off =>
    { desc := ({ write := true, size := size, offset := off } : Descriptor).toByte, wdata := v }

end Sys2Proof
end

