-- ==== Sys2Proof/Machine/Convert.lean ====
section
/-! DEFINITION. The conversion function CONVERT (40_conversion.md R49 to R59), on natural numbers (R6). -/

namespace Sys2Proof.Machine

/-- `is_leap(y)` (R52). -/
def isLeap (y : Nat) : Bool := y % 4 == 0 && (y % 100 != 0 || y % 400 == 0)

/-- `ylen(y)` (R53). -/
def ylen (y : Nat) : Nat := if isLeap y then 366 else 365

/-- `MLEN[m]`, m 1-based (R56). R57 shows that no other index is read. -/
def mlenTable (m : Nat) : Nat := [31, 28, 31, 30, 31, 30, 31, 31, 30, 31, 30, 31].getD (m - 1) 0

/-- `mlen(m, leap)` (R56). -/
def mlen (m : Nat) (leap : Bool) : Nat := if m == 2 && leap then 29 else mlenTable m

/-- The record CONVERT returns (R49). `weekday` is the code of R16. -/
structure CalendarDateTime where
  year    : Nat
  month   : Nat
  day     : Nat
  hour    : Nat
  minute  : Nat
  second  : Nat
  weekday : Nat
  leap    : Bool
  yday    : Nat
deriving DecidableEq, Repr

/-- Step 1, whole days (R51). -/
def daysOf (s : Nat) : Nat := s / 86400

/-- Step 1, time of day (R51). -/
def todOf (s : Nat) : Nat := s % 86400

/-- Step 2, the weekday code of a day (R54). -/
def weekdayOf (days : Nat) : Nat := (days + 4) % 7

/-- Step 3, the year loop (R55): from the days and the year, the days left and the year when it exits. The first
argument bounds the number of tests (log 16). -/
def yearLoop : Nat → Nat → Nat → Nat × Nat
  | 0, days, year => (days, year)
  | fuel + 1, days, year =>
    if days < ylen year then (days, year) else yearLoop fuel (days - ylen year) (year + 1)

/-- At most 136 year steps and the exit test after them (R62; log 16). -/
def yearTests : Nat := 137

/-- Step 3: the day of the year and the year (R55). -/
def resolveYear (days : Nat) : Nat × Nat := yearLoop yearTests days 1970

/-- Step 4, the month loop (R57): from the days and the month, the days left and the month when it exits. The second
argument bounds the number of tests (log 16). -/
def monthLoop (leap : Bool) : Nat → Nat → Nat → Nat × Nat
  | 0, days, month => (days, month)
  | fuel + 1, days, month =>
    if days < mlen month leap then (days, month) else monthLoop leap fuel (days - mlen month leap) (month + 1)

/-- At most 11 month steps and the exit test after them (R62; log 16). -/
def monthTests : Nat := 12

/-- Step 4: the day of the month, zero-based, and the month (R57). -/
def resolveMonth (leap : Bool) (yday : Nat) : Nat × Nat := monthLoop leap monthTests yday 1

/-- The date part of the record, from the whole days (R54, R55, R57, R58), and the time part, from the time of day
(R58). -/
def convertDayAndTime (days tod : Nat) : CalendarDateTime :=
  let y := resolveYear days
  let leap := isLeap y.2
  let m := resolveMonth leap y.1
  { year := y.2
    month := m.2
    day := m.1 + 1
    hour := tod / 3600
    minute := tod / 60 % 60
    second := tod % 60
    weekday := weekdayOf days
    leap := leap
    yday := y.1 }

/-- `CONVERT(s)` (R49, R59). -/
def convert (s : Word) : CalendarDateTime := convertDayAndTime (daysOf s.toNat) (todOf s.toNat)

end Sys2Proof.Machine
end

