-- ==== Sys2Proof/Machine/State.lean ====
section
/-! DEFINITION. The state of the block (R12), the inputs that reach it, and the reasons a step can stop. -/

namespace Sys2Proof.Machine

/-- What a host can do that breaks its obligations on the window (R32). -/
inductive Breach where
  /-- item 1: an access delivered out of the host's program order -/
  | outOfOrder
  /-- item 1: two accesses at a time -/
  | overlapping
  /-- item 2: a read satisfied by a cache, or from an earlier read or write -/
  | cachedRead
  /-- item 2: writes merged -/
  | mergedWrites
  /-- item 2: a write dropped as redundant -/
  | droppedWrite
  /-- item 3: a speculative read of the window -/
  | speculativeRead
  /-- item 4: an access not made as a single 32-bit transaction -/
  | splitAccess
deriving DecidableEq, Repr

/-- What the outside does to the block next (R8, R34, R94, R95; log 1). -/
inductive Input where
  /-- a bus transaction of the host (R40) -/
  | access (t : Transaction)
  /-- an instruction fetch from the window at an offset (R28, R38) -/
  | fetch (offset : BitVec 5)
  /-- the reset input asserted and deasserted (R95; log 12) -/
  | reset
  /-- the block's power lost and back (R94; log 12) -/
  | powerLoss
  /-- a stretch in which the platform gates the block's clock (R94; log 13) -/
  | clockGated
  /-- the host breaks an obligation of R32 (log 14) -/
  | breach (b : Breach)
deriving DecidableEq, Repr

/-- The machine stops with a fault. All are safe: nothing is claimed of the state afterwards, which the spec leaves
unspecified (R80). -/
inductive Fault where
  /-- Raised by a transaction whose descriptor is none of the six (R80, R82): the descriptor, and WDATA for a write.
  Safe: R4 lets the block do anything here (log 6). -/
  | unsupported (desc : Byte) (wdata : Option Word)
  /-- Raised by an instruction fetch from the window (R28, R38, R80); it has no descriptor (95_test_vectors.md U11).
  Safe (log 6, log 7). -/
  | instructionFetch (offset : BitVec 5)
deriving DecidableEq, Repr

/-- The model gives no meaning. -/
inductive Refusal where
  /-- Raised by `exec` for an instruction with no meaning yet; no arm raises it. Safe. -/
  | notModelled (mnemonic : String)
  /-- Raised by a step whose input says that the host breaks R32: "a model should refuse such a program". Safe
  (log 14). -/
  | hostBreaksObligation (b : Breach)
  /-- Raised by a host program of R47 that goes to a label it does not have. Safe (log 18). -/
  | noSuchLabel (label : Nat)
deriving DecidableEq, Repr

/-- The state of the block (R12) and the model's own fields. -/
structure State where
  /-- EPOCH, the input latch (R14) -/
  epoch : Word
  /-- STATUS.BUSY (R15); STATUS is a view of it -/
  busy : Bool
  /-- DATE (R17) -/
  date : Word
  /-- TIME (R18) -/
  time : Word
  /-- DAYINFO (R19) -/
  dayinfo : Word
  /-- model: RDATA of the last transaction (R40; log 2) -/
  rdata : Option Word
  /-- model: what the outside does next, first is next (log 1) -/
  inputs : List Input
  /-- model: turns of the host that pass before COMPLETE, while BUSY = 1 (R4, R102; log 3) -/
  turnsLeft : Nat
  /-- model: the number of free values drawn (R7; log 4) -/
  draws : Nat
deriving DecidableEq, Repr

/-- The whole state of the block that the spec gives it (R12), without the model's fields. -/
structure Registers where
  epoch : Word
  busy : Bool
  date : Word
  time : Word
  dayinfo : Word
deriving DecidableEq, Repr

/-- The block's registers. -/
def State.registers (s : State) : Registers :=
  { epoch := s.epoch, busy := s.busy, date := s.date, time := s.time, dayinfo := s.dayinfo }

/-- The registers right after reset (R13, R95). -/
def Registers.reset : Registers :=
  { epoch := 0x00000000#32, busy := false, date := 0x010107B2#32, time := 0x00000000#32, dayinfo := 0x00000004#32 }

/-- The machine right after reset (R95). The model's own fields: DESIGN CHOICE (log 5). -/
def State.reset : State :=
  { epoch := Registers.reset.epoch
    busy := Registers.reset.busy
    date := Registers.reset.date
    time := Registers.reset.time
    dayinfo := Registers.reset.dayinfo
    rdata := none
    inputs := []
    turnsLeft := 0
    draws := 0 }

end Sys2Proof.Machine
end

