-- ==== Sys2Proof/Machine/Flags.lean ====
section
/-! DEFINITION. The two status flags, STATUS.BUSY and DAYINFO.LEAP (R22). -/

namespace Sys2Proof.Machine

/-- STATUS as software reads it (R15, R43): BUSY in bit 0, bits 31:1 zero. -/
def statusBeat (busy : Bool) : Word := 0#31 ++ BitVec.ofBool busy

/-- STATUS.BUSY of a STATUS value. -/
def statusBusy (w : Word) : Bool := w.getLsbD 0

/-- DAYINFO.LEAP of a DAYINFO value (R19, R22). -/
def dayinfoLeap (w : Word) : Bool := w.getLsbD 8

/-- BUSY set, by WR_EPOCH only (R22, R74). -/
def State.setBusy (s : State) : State := { s with busy := true }

/-- BUSY cleared, by COMPLETE (R22, R79). -/
def State.clearBusy (s : State) : State := { s with busy := false }

end Sys2Proof.Machine
end

