-- ==== Sys2Proof/Machine/Operands.lean ====
section
/-! DEFINITION. The fields of the registers (R17 to R19), the encoders that put CONVERT's record in them (R64), the
data beat each read returns (R43), and the byte lanes (R27). -/

namespace Sys2Proof.Machine

/-- DATE.YEAR, bits 15:0 (R17). -/
def dateYear (w : Word) : BitVec 16 := w.extractLsb' 0 16

/-- DATE.MONTH, bits 23:16 (R17). -/
def dateMonth (w : Word) : BitVec 8 := w.extractLsb' 16 8

/-- DATE.DAY, bits 31:24 (R17). -/
def dateDay (w : Word) : BitVec 8 := w.extractLsb' 24 8

/-- TIME.SECOND, bits 7:0 (R18). -/
def timeSecond (w : Word) : BitVec 8 := w.extractLsb' 0 8

/-- TIME.MINUTE, bits 15:8 (R18). -/
def timeMinute (w : Word) : BitVec 8 := w.extractLsb' 8 8

/-- TIME.HOUR, bits 23:16 (R18). -/
def timeHour (w : Word) : BitVec 8 := w.extractLsb' 16 8

/-- DAYINFO.WDAY, bits 2:0 (R19). -/
def dayinfoWday (w : Word) : BitVec 3 := w.extractLsb' 0 3

/-- DAYINFO.YDAY, bits 24:16 (R19). -/
def dayinfoYday (w : Word) : BitVec 9 := w.extractLsb' 16 9

/-- `encDATE(r)` (R64). -/
def encDate (r : CalendarDateTime) : Word :=
  BitVec.ofNat 8 r.day ++ BitVec.ofNat 8 r.month ++ BitVec.ofNat 16 r.year

/-- `encTIME(r)` (R64). -/
def encTime (r : CalendarDateTime) : Word :=
  0#8 ++ BitVec.ofNat 8 r.hour ++ BitVec.ofNat 8 r.minute ++ BitVec.ofNat 8 r.second

/-- `encDAYINFO(r)` (R64). -/
def encDayinfo (r : CalendarDateTime) : Word :=
  0#7 ++ BitVec.ofNat 9 r.yday ++ 0#7 ++ BitVec.ofBool r.leap ++ 0#5 ++ BitVec.ofNat 3 r.weekday

/-- The beat of RD_DATE (R43): {DAY, MONTH, YEAR}. -/
def dateBeat (w : Word) : Word := dateDay w ++ dateMonth w ++ dateYear w

/-- The beat of RD_TIME (R43): {0, HOUR, MINUTE, SECOND}; the reserved bits read as 0 (R20; log 11). -/
def timeBeat (w : Word) : Word := 0#8 ++ timeHour w ++ timeMinute w ++ timeSecond w

/-- The beat of RD_DAYINFO (R43): {0, YDAY, 0, LEAP, 0, WDAY}; the reserved bits read as 0 (R20; log 11). -/
def dayinfoBeat (w : Word) : Word :=
  0#7 ++ dayinfoYday w ++ 0#7 ++ BitVec.ofBool (dayinfoLeap w) ++ 0#5 ++ dayinfoWday w

/-- The byte of a register at lane `i`, that is at offset `off + i` (R27: little-endian). -/
def lane (w : Word) (i : Fin 4) : Byte := w.extractLsb' (8 * i.val) 8

end Sys2Proof.Machine
end

