-- ==== Sys2Proof/Machine/Ops.lean ====
section
/-! DEFINITION. The shared operations: answering a read, drawing a free value, starting a conversion, raising
Unsupported, reset. The block takes no trap and returns from none (R87, R88): its one exception cause is Unsupported
(R82). -/

namespace Sys2Proof.Machine

/-- The outcome of a step. -/
abbrev Result := Host.Outcome State Fault Refusal

/-- A read returns a beat and changes nothing else: "No read has a side effect" (R30). -/
def respond (v : Word) (s : State) : Result := .next { s with rdata := some v }

/-- A read returns `any32` (R7): the next draw, "a fresh draw with no law" (I3; log 4). -/
def respondAny (s : State) : Result :=
  .next { s with rdata := some (Config.any32 s.draws), draws := s.draws + 1 }

/-- The read of a result register (R76 to R78): the beat when BUSY = 0, `any32` when BUSY = 1. -/
def readResult (beat : Word) (s : State) : Result :=
  if s.busy then respondAny s else respond beat s

/-- How many turns the conversion just started will take: a free value (R4; log 3). -/
def drawLatency (s : State) : State :=
  { s with turnsLeft := Config.convLatency s.epoch s.draws, draws := s.draws + 1 }

/-- EPOCH <- v (R14, R42). -/
def loadEpoch (v : Word) (s : State) : State := { s with epoch := v }

/-- A write returns no beat (O6 of 95_test_vectors.md; log 2). -/
def noResponse (s : State) : State := { s with rdata := none }

/-- EPOCH <- v, BUSY <- 1 (R74): a conversion is started, or restarted when one is in progress. -/
def startConversion (v : Word) (s : State) : State :=
  drawLatency (noResponse (loadEpoch v s).setBusy)

/-- `raise Unsupported(desc)` (R80): the fault carries the descriptor, "for a write, also WDATA" (R82). -/
def raiseUnsupported (t : Transaction) : Result :=
  .fault (.unsupported t.desc (if t.desc.getLsbD 7 then some t.wdata else none))

/-- An instruction fetch from the window is an unsupported access (R28, R38, R80; log 7). -/
def raiseInstructionFetch (offset : BitVec 5) : Result := .fault (.instructionFetch offset)

/-- Every register at its reset value (R95); a conversion in progress is abandoned. The inputs still to come and the
count of draws are the outside's and the model's, and stay (log 12). -/
def resetBlock (s : State) : State :=
  { State.reset with inputs := s.inputs, draws := s.draws }

/-- A turn of the host passes (log 3). -/
def passTurn (s : State) : State := { s with turnsLeft := s.turnsLeft - 1 }

/-- The first input is taken off the list. -/
def popInput (s : State) : State := { s with inputs := s.inputs.tail }

end Sys2Proof.Machine
end

