-- ==== Sys2Proof/Machine/Reads.lean ====
section
/-! DEFINITION. The five reads (R73, R75 to R78). -/

namespace Sys2Proof.Machine

/-- RD_EPOCH: `RDATA <- EPOCH`, also while busy (R73). -/
def execRdEpoch (s : State) : Result := respond s.epoch s

/-- RD_STATUS: `RDATA <- zext_32(BUSY)`, at every moment; it does not clear BUSY (R75). -/
def execRdStatus (s : State) : Result := respond (statusBeat s.busy) s

/-- RD_DATE: DATE when BUSY = 0, else `any32` (R76). -/
def execRdDate (s : State) : Result := readResult (dateBeat s.date) s

/-- RD_TIME: TIME when BUSY = 0, else `any32` (R77). -/
def execRdTime (s : State) : Result := readResult (timeBeat s.time) s

/-- RD_DAYINFO: DAYINFO when BUSY = 0, else `any32` (R78). -/
def execRdDayinfo (s : State) : Result := readResult (dayinfoBeat s.dayinfo) s

end Sys2Proof.Machine
end

