-- ==== Sys2Proof/Machine/Writes.lean ====
section
/-! DEFINITION. The one write, WR_EPOCH (R74). -/

namespace Sys2Proof.Machine

/-- WR_EPOCH: `EPOCH <- WDATA ; BUSY <- 1`. No exception: every value is a legal input (R62, R74). -/
def execWrEpoch (wdata : Word) (s : State) : Result := .next (startConversion wdata s)

end Sys2Proof.Machine
end

