-- ==== Sys2Proof/Machine/Dispatch.lean ====
section
/-! DEFINITION. One arm per operation (R72). -/

namespace Sys2Proof.Machine

def exec (i : Instr) (s : State) : Host.Outcome State Fault Refusal :=
  match i with
  | .rdEpoch => Sys2Proof.Machine.execRdEpoch s
  | .wrEpoch wdata => Sys2Proof.Machine.execWrEpoch wdata s
  | .rdStatus => Sys2Proof.Machine.execRdStatus s
  | .rdDate => Sys2Proof.Machine.execRdDate s
  | .rdTime => Sys2Proof.Machine.execRdTime s
  | .rdDayinfo => Sys2Proof.Machine.execRdDayinfo s

end Sys2Proof.Machine
end

