-- ==== Sys2Proof/Machine/Engine.lean ====
section
/-! DEFINITION. The ENGINE and its one step, COMPLETE (R79). -/

namespace Sys2Proof.Machine

/-- The three results, encoded from one record (R64, R79). -/
def writeResults (r : CalendarDateTime) (s : State) : State :=
  { s with date := encDate r, time := encTime r, dayinfo := encDayinfo r }

/-- COMPLETE, one atomic step: it reads EPOCH at the moment of the step, writes the results and clears BUSY (R79). -/
def complete (s : State) : State := (writeResults (convert s.epoch) s).clearBusy

/-- COMPLETE is enabled exactly when BUSY = 1 (R79). -/
def completeEnabled (s : State) : Bool := s.busy

/-- The engine moves next: COMPLETE is enabled and no more turns of the host pass before it (R34, R102; log 3). -/
def engineMoves (s : State) : Bool := completeEnabled s && s.turnsLeft == 0

end Sys2Proof.Machine
end

