-- ==== Sys2Proof/Machine/Bus.lean ====
section
/-! DEFINITION. A turn of the outside: what each input does to the block (R72, R80, R94, R95). -/

namespace Sys2Proof.Machine

/-- A transaction, in one atomic step (R29, R72): one of the six operations, or Unsupported. -/
def performAccess (t : Transaction) (s : State) : Result :=
  match decode t with
  | .operation i => exec i s
  | .unsupported _ => raiseUnsupported t

/-- What an input does, once it is taken off the list. Only an access is a turn of the host. -/
def performInput (i : Input) (s : State) : Result :=
  match i with
  | .access t => performAccess t (passTurn s)
  | .fetch offset => raiseInstructionFetch offset
  | .reset => .next (resetBlock s)
  | .powerLoss => .next (resetBlock s)
  | .clockGated => .next s
  | .breach b => .refused (.hostBreaksObligation b)

/-- The next input, in the order the block receives them (R34); with none, the host lets a turn pass (log 15). -/
def outsideMoves (s : State) : Result :=
  match s.inputs with
  | [] => .next (passTurn s)
  | i :: _ => performInput i (popInput s)

/-- A transaction placed before all other inputs, with COMPLETE later than it (log 1): the turn it takes is added, so
that it runs in the state as it stands. -/
def placeAccess (t : Transaction) (s : State) : State :=
  { s with inputs := .access t :: s.inputs, turnsLeft := s.turnsLeft + 1 }

end Sys2Proof.Machine
end

