-- ==== Sys2Proof/Machine/Step.lean ====
section
/-! DEFINITION. One step: COMPLETE or the next input (R34). -/

namespace Sys2Proof.Machine

/-- One event of the interleaving of HOST and ENGINE (R34). -/
def step (s : State) : Host.Outcome State Fault Refusal :=
  if engineMoves s then .next (complete s) else outsideMoves s

/-- The transaction of a table word, placed so that the very next step performs it (log 1, log 8). -/
def State.withFetchWord (s : State) (nbits w : Nat) : State :=
  placeAccess (Transaction.ofTableWord nbits w) s

end Sys2Proof.Machine
end

