-- ==== Sys2Proof/Machine/HostProgram.lean ====
section
/-! DEFINITION. The notation of host programs (R47) and its pseudo-instructions (R48): statements, host variables and
a system of one program driving the block. The statements belong to the notation, not to the block (R47). -/

namespace Sys2Proof.HostProgram

open Sys2Proof.Machine

/-- A host variable or a label, by number. -/
abbrev Var := Nat
abbrev Label := Nat

/-- `<expr>` (R47): arithmetic modulo 2^32, and slices (R5). -/
inductive Expr where
  | lit (v : Word)
  | var (x : Var)
  | add (a b : Expr)
  | sub (a b : Expr)
  | mul (a b : Expr)
  | slice (a : Expr) (hi lo : Nat)
deriving DecidableEq, Repr

/-- `<cond>` (R47). -/
inductive Cond where
  | eq (a b : Expr)
  | ne (a b : Expr)
deriving DecidableEq, Repr

/-- The readable registers (R13). -/
inductive Readable where
  | epoch
  | status
  | date
  | time
  | dayinfo
deriving DecidableEq, Repr

/-- The statements (R47). -/
inductive Stmt where
  | wrEpoch (v : Expr)
  | rd (r : Readable) (x : Var)
  | assign (x : Var) (e : Expr)
  | ifGoto (c : Cond) (l : Label)
  | goto (l : Label)
  | label (l : Label)
  /-- a transaction given by its descriptor and beat, as program P6 of 95_test_vectors.md has one; its response is
  discarded -/
  | access (t : Transaction)
  | halt
deriving DecidableEq, Repr

/-- `WAIT` (R48), with its fresh label and variable given. -/
def wait (lw : Label) (t : Var) : List Stmt :=
  [.label lw, .rd .status t, .ifGoto (.eq (.slice (.var t) 0 0) (.lit 1#32)) lw]

/-- `CONV <v>` (R48). -/
def conv (v : Expr) (lw : Label) (t : Var) : List Stmt := .wrEpoch v :: wait lw t

/-- `GET <d>, <t>, <i>` (R48). -/
def get (d t i : Var) : List Stmt := [.rd .date d, .rd .time t, .rd .dayinfo i]

/-- The operation a read statement is (R47). -/
def Readable.operation : Readable → Instr
  | .epoch => .rdEpoch
  | .status => .rdStatus
  | .date => .rdDate
  | .time => .rdTime
  | .dayinfo => .rdDayinfo

/-- The host variables that have been assigned, latest first. -/
abbrev Vars := List (Var × Word)

/-- The value of a host variable; before its first assignment a free value (log 18). -/
def Vars.read (vs : Vars) (x : Var) : Word := (vs.lookup x).getD (Config.unsetVariable x)

/-- The value of an expression (R47, R5). DESIGN CHOICE (log 23): a slice with `hi < lo`, or reaching above bit 31, to
which R5 and R47 give no meaning, has no bits in the first case, so its value is 0, and reads the missing bits as 0 in
the second. -/
def Expr.value (vs : Vars) : Expr → Word
  | .lit v => v
  | .var x => vs.read x
  | .add a b => a.value vs + b.value vs
  | .sub a b => a.value vs - b.value vs
  | .mul a b => a.value vs * b.value vs
  | .slice a hi lo => ((a.value vs).extractLsb' lo (hi + 1 - lo)).setWidth 32

/-- Whether a condition holds (R47). -/
def Cond.value (vs : Vars) : Cond → Bool
  | .eq a b => a.value vs == b.value vs
  | .ne a b => a.value vs != b.value vs

/-- A program, the next statement, the host's variables, and the block. -/
structure System where
  program : List Stmt
  next    : Nat
  vars    : Vars
  block   : State
deriving DecidableEq, Repr

/-- The transaction a statement makes (R47), if it makes one. -/
def Stmt.transaction (vs : Vars) : Stmt → Option Transaction
  | .wrEpoch v => some (encode (.wrEpoch (v.value vs)))
  | .rd r _ => some (encode r.operation)
  | .access t => some t
  | .assign _ _ => none
  | .ifGoto _ _ => none
  | .goto _ => none
  | .label _ => none
  | .halt => none

/-- The host side of a statement, once the block has performed its transaction and answered `rdata`. A jump to a label
the program lacks is refused (log 18). DESIGN CHOICE (log 24): where a label stands more than once, which R47 does not
speak of, a jump reaches its first occurrence. -/
def finish (st : Stmt) (rdata : Option Word) (y : System) : Host.Outcome System Fault Refusal :=
  let jump (l : Label) : Host.Outcome System Fault Refusal :=
    if (Stmt.label l) ∈ y.program then .next { y with next := y.program.idxOf (.label l) }
    else .refused (.noSuchLabel l)
  let go : System := { y with next := y.next + 1 }
  match st with
  | .wrEpoch _ => .next go
  | .rd _ x => match rdata with
    | some v => .next { go with vars := (x, v) :: y.vars }
    | none => .next go
  | .assign x e => .next { go with vars := (x, e.value y.vars) :: y.vars }
  | .ifGoto c l => if c.value y.vars then jump l else .next go
  | .goto l => jump l
  | .label _ => .next go
  | .access _ => .next go
  | .halt => .next y

/-- The statement the host is at; past the last one the program has ended (log 18). -/
def System.statement (y : System) : Stmt := y.program.getD y.next .halt

/-- The inputs the block gets from the statement the host is at. DESIGN CHOICE (log 25): the system is closed. The
statement's transaction is the only input, whatever `inputs` the block held, so no access of another host context (R100,
D22), no reset and no gated clock falls between the statements of the program. -/
def System.issue (y : System) : State :=
  { y.block with inputs := ((y.statement.transaction y.vars).map Input.access).toList }

/-- One step of the system: COMPLETE, or the host's statement with the transaction it makes (R34, R47). -/
def System.step (y : System) : Host.Outcome System Fault Refusal :=
  if engineMoves y.block then .next { y with block := complete y.block }
  else match Machine.step y.issue with
    | .next b => finish y.statement b.rdata { y with block := b }
    | .fault f => .fault f
    | .refused r => .refused r

/-- A program at its first statement, on a block. -/
def System.start (program : List Stmt) (block : State) : System :=
  { program := program, next := 0, vars := [], block := block }

/-- The host has reached `halt` (R47). -/
def System.halted (y : System) : Bool := y.statement == .halt

end Sys2Proof.HostProgram
end

