-- ==== Sys2Proof/Machine/Interleaving.lean ====
section
/-! DEFINITION. The ordering model as a relation (R34): an execution is one interleaving of HOST accesses with ENGINE
steps, COMPLETE anywhere it is enabled, every `any32` arbitrary. It is written from the rules' pseudocode, beside the
meanings; an obligation says that every step of the machine is one of its events. -/

namespace Sys2Proof.Machine

/-- The events of the block. `nothing` is an idle turn or a gated clock. -/
inductive Event where
  | access (i : Instr)
  | complete
  | reset
  | nothing
deriving DecidableEq, Repr

/-- `if BUSY = 0 then RDATA <- result else RDATA <- any32` (R76 to R78): a busy read may return anything. -/
def MayReturn (busy : Bool) (result : Word) (rdata : Option Word) : Prop :=
  ∃ v, rdata = some v ∧ (busy = false → v = result)

/-- What an event may do to the registers, with the response it returns (R73 to R79, R95). The stored results may
become anything at WR_EPOCH: "nothing is promised" of them (R21, R74). -/
def Allowed (e : Event) (b : Registers) (rdata : Option Word) (b' : Registers) : Prop :=
  match e with
  | .access .rdEpoch => rdata = some b.epoch ∧ b' = b
  | .access (.wrEpoch v) => rdata = none ∧ b'.epoch = v ∧ b'.busy = true
  | .access .rdStatus => rdata = some (statusBeat b.busy) ∧ b' = b
  | .access .rdDate => MayReturn b.busy b.date rdata ∧ b' = b
  | .access .rdTime => MayReturn b.busy b.time rdata ∧ b' = b
  | .access .rdDayinfo => MayReturn b.busy b.dayinfo rdata ∧ b' = b
  | .complete =>
    b.busy = true ∧ rdata = none ∧
      b' = { epoch := b.epoch, busy := false, date := encDate (convert b.epoch), time := encTime (convert b.epoch),
             dayinfo := encDayinfo (convert b.epoch) }
  | .reset => rdata = none ∧ b' = Registers.reset
  | .nothing => rdata = none ∧ b' = b

/-- An execution from one state of the block to another, with the events and responses in order (R34). -/
inductive Execution : Registers → List (Event × Option Word) → Registers → Prop where
  | done (b : Registers) : Execution b [] b
  | event (e : Event) (r : Option Word) (b b' b'' : Registers) (rest : List (Event × Option Word)) :
      Allowed e b r b' → Execution b' rest b'' → Execution b ((e, r) :: rest) b''

/-- The event that an input is; none for one that ends the run. -/
def eventOfInput (i : Input) : Option Event :=
  match i with
  | .access t => (decode t).toOption.map .access
  | .fetch _ => none
  | .reset => some .reset
  | .powerLoss => some .reset
  | .clockGated => some .nothing
  | .breach _ => none

/-- The event that the next step of the machine is. -/
def nextEvent (s : State) : Option Event :=
  if engineMoves s then some .complete
  else match s.inputs with
    | [] => some .nothing
    | i :: _ => eventOfInput i

/-- The response the host gets from an event that led to a state: RDATA for an access, none for any other. -/
def responseTo (e : Event) (t : State) : Option Word :=
  match e with
  | .access _ => t.rdata
  | .complete => none
  | .reset => none
  | .nothing => none

/-- The event neither starts a conversion nor resets the block. -/
def Event.keepsEpoch (e : Event) : Bool :=
  match e with
  | .access (.wrEpoch _) => false
  | .access .rdEpoch => true
  | .access .rdStatus => true
  | .access .rdDate => true
  | .access .rdTime => true
  | .access .rdDayinfo => true
  | .complete => true
  | .reset => false
  | .nothing => true

end Sys2Proof.Machine
end

