-- ==== Sys2Proof/Machine/Reference.lean ====
section
/-! DEFINITION. The reference functions the block does not compute: TO_EPOCH (R65), RENDER (R69), and the table of
weekday codes (R16). -/

namespace Sys2Proof.Machine

/-- The days of the first `n` years from 1970: the sum of `ylen(y)` for 1970 ≤ y < 1970 + n (R65). -/
def daysOfYears : Nat → Nat
  | 0 => 0
  | n + 1 => daysOfYears n + ylen (1970 + n)

/-- The days of the first `n` months of a year: the sum of `mlen(m, leap)` for 1 ≤ m ≤ n (R65). -/
def daysOfMonths (leap : Bool) : Nat → Nat
  | 0 => 0
  | n + 1 => daysOfMonths leap n + mlen (n + 1) leap

/-- TO_EPOCH's `d`: the whole days of a date (R65). -/
def toDays (year month day : Nat) : Nat :=
  daysOfYears (year - 1970) + daysOfMonths (isLeap year) (month - 1) + (day - 1)

/-- `TO_EPOCH` (R65), the reference inverse of CONVERT. -/
def toEpoch (year month day hour minute second : Nat) : Nat :=
  toDays year month day * 86400 + hour * 3600 + minute * 60 + second

/-- TO_EPOCH of a record's date and time (R66). -/
def CalendarDateTime.toEpoch (r : CalendarDateTime) : Nat :=
  Machine.toEpoch r.year r.month r.day r.hour r.minute r.second

/-- The seven named weekdays (R16). -/
inductive Weekday where
  | sunday
  | monday
  | tuesday
  | wednesday
  | thursday
  | friday
  | saturday
deriving DecidableEq, Repr

/-- The weekday of a 3-bit code (R16); code 7 is never produced. -/
def Weekday.ofCode (c : BitVec 3) : Option Weekday :=
  [.sunday, .monday, .tuesday, .wednesday, .thursday, .friday, .saturday][c.toNat]?

/-- NAME (R69). -/
def Weekday.name : Weekday → String
  | .sunday => "Sunday"
  | .monday => "Monday"
  | .tuesday => "Tuesday"
  | .wednesday => "Wednesday"
  | .thursday => "Thursday"
  | .friday => "Friday"
  | .saturday => "Saturday"

/-- One decimal digit. -/
def digit (v : Nat) : Char := Char.ofNat (48 + v % 10)

/-- `dec2(v)` (R69), for values of at most two digits. -/
def dec2 (v : Nat) : List Char := [digit (v / 10), digit v]

/-- `dec4(v)` (R69), for values of at most four digits. -/
def dec4 (v : Nat) : List Char := dec2 (v / 100) ++ dec2 v

/-- The name a record's weekday code has (R16, R69). -/
def CalendarDateTime.weekdayName (r : CalendarDateTime) : List Char :=
  match Weekday.ofCode (BitVec.ofNat 3 r.weekday) with
  | some w => w.name.toList
  | none => []

/-- `RENDER(r)` (R69). -/
def render (r : CalendarDateTime) : String :=
  String.ofList (dec4 r.year ++ ['-'] ++ dec2 r.month ++ ['-'] ++ dec2 r.day ++ [' ']
    ++ dec2 r.hour ++ [':'] ++ dec2 r.minute ++ [':'] ++ dec2 r.second
    ++ [' ', '('] ++ r.weekdayName ++ [')'])

end Sys2Proof.Machine
end

