-- ==== Sys2Proof/Safety.lean ====
section
/-! DEFINITION. What claims are stated in: the result invariant (R21), runs, and inputs that leave a conversion
alone. -/

namespace Sys2Proof.Machine

/-- The result invariant (R21): when BUSY = 0 the results encode CONVERT(EPOCH). -/
structure Registers.ResultsHold (b : Registers) : Prop where
  date : b.busy = false → b.date = encDate (convert b.epoch)
  time : b.busy = false → b.time = encTime (convert b.epoch)
  dayinfo : b.busy = false → b.dayinfo = encDayinfo (convert b.epoch)

/-- The result invariant of a state (R21). -/
abbrev State.ResultsHold (s : State) : Prop := s.registers.ResultsHold

/-- `k` steps of the machine, ended by the first fault or refusal: `Host.Core.run` of the machine, at its own types. -/
def run : Nat → State → Result
  | 0, s => .next s
  | k + 1, s => match step s with
    | .next t => run k t
    | .fault f => .fault f
    | .refused r => .refused r

/-- A run that has met no unsupported access and no breach: "A program is correct only if no run performs an
unsupported access" (R80). -/
def SafeFor (k : Nat) (s : State) : Prop := ∃ t, run k s = .next t

/-- An input that leaves the conversion in progress alone: a supported read, or a gated clock (R30, R94). -/
def Input.leavesConversion (i : Input) : Bool :=
  match i with
  | .access t => match decode t with
    | .operation i => i.isRead
    | .unsupported _ => false
  | .fetch _ => false
  | .reset => false
  | .powerLoss => false
  | .clockGated => true
  | .breach _ => false

/-- From here on, the host issues no WR_EPOCH, and nothing resets the block or ends the run. -/
def State.onlyReadsFollow (s : State) : Prop := ∀ i ∈ s.inputs, Input.leavesConversion i = true

/-- A record's fields are in the ranges of R60 for a date of the Gregorian calendar. -/
structure CalendarDateTime.InRange (r : CalendarDateTime) : Prop where
  year : 1970 ≤ r.year ∧ r.year ≤ 2106
  month : 1 ≤ r.month ∧ r.month ≤ 12
  day : 1 ≤ r.day ∧ r.day ≤ mlen r.month r.leap
  hour : r.hour ≤ 23
  minute : r.minute ≤ 59
  second : r.second ≤ 59
  weekday : r.weekday ≤ 6
  leap : r.leap = isLeap r.year
  yday : r.yday < ylen r.year

end Sys2Proof.Machine
end

