-- ==== Sys2Proof/Certificates/Slice0/Obligations.lean ====
section
/-! DEFINITION. The statements for the provers. Each docstring names the rule of spec/ it formalises, or the log entry
of the model's choice it rests on. -/

open Sys2Proof Sys2Proof.Machine

/-! ### Encoding -/

/-- Every operation is read back from its 40 bits, the operand at every value (R40, R42, R46; the layout of the beat
is the model's, log 8). -/
def Obligations.OperationsRoundTripThroughTheirBits : Prop :=
  ∀ i : Instr, i.wellFormed = true → decodeTableWord 40 (encodeBits i) = some i

/-- A transaction that decodes is the encoding of what it decodes to: the descriptor whole, and the beat on a write
(R40, R44). -/
def Obligations.DecodedTransactionIsTheEncoding : Prop :=
  ∀ (t : Transaction) (i : Instr), decode t = .operation i →
    (encode i).desc = t.desc ∧ (t.desc.getLsbD 7 = true → encode i = t)

/-- The opcode map (R44): the six descriptors, and no other, are operations. -/
def Obligations.OpcodeMapHasExactlySixDescriptors : Prop :=
  (∀ w : Word,
    decode ⟨0x40#8, w⟩ = .operation .rdEpoch ∧ decode ⟨0xC0#8, w⟩ = .operation (.wrEpoch w) ∧
    decode ⟨0x44#8, w⟩ = .operation .rdStatus ∧ decode ⟨0x48#8, w⟩ = .operation .rdDate ∧
    decode ⟨0x4C#8, w⟩ = .operation .rdTime ∧ decode ⟨0x50#8, w⟩ = .operation .rdDayinfo) ∧
  (∀ (d : Byte) (w : Word), d ∉ [0x40#8, 0xC0#8, 0x44#8, 0x48#8, 0x4C#8, 0x50#8] →
    ∃ c, decode ⟨d, w⟩ = .unsupported c)

/-- R28's description of a supported access and R44's opcode map take in the same descriptors. -/
def Obligations.SupportedAccessesAreTheOperations : Prop :=
  ∀ t : Transaction, (Descriptor.ofByte t.desc).supported = true ↔ ∃ i, decode t = .operation i

/-- R45: an unsupported descriptor is in the class it is named by, an operation is in none, and the unsupported ones
are 250 of the 256 (the choice of the name among several classes is the model's, log 20). -/
def Obligations.UnsupportedDescriptorsFallInTheirClasses : Prop :=
  (∀ (t : Transaction) (c : UnsupportedClass), decode t = .unsupported c →
    c.contains (Descriptor.ofByte t.desc) = true) ∧
  (∀ (t : Transaction) (i : Instr) (c : UnsupportedClass), decode t = .operation i →
    c.contains (Descriptor.ofByte t.desc) = false) ∧
  ((List.range 256).filter fun n => (decode ⟨BitVec.ofNat 8 n, 0#32⟩).toOption.isNone).length = 250

/-- R26, R40: a host access at `GCC_BASE + off` is the transaction whose OFFSET is `off`, with its W and SIZE; an
address outside the window is none (the address as a natural number is the model's, log 9). -/
def Obligations.WindowAddressesNameTransactions : Prop :=
  (∀ (size : Size) (off : Nat) (v : Word), off < 32 →
    (∃ t, Transaction.read size (Config.gccBase + off) = some t ∧
      (Descriptor.ofByte t.desc) = { write := false, size := size, offset := BitVec.ofNat 5 off }) ∧
    (∃ t, Transaction.write size (Config.gccBase + off) v = some t ∧ t.wdata = v ∧
      (Descriptor.ofByte t.desc) = { write := true, size := size, offset := BitVec.ofNat 5 off })) ∧
  (∀ (size : Size) (addr : Nat) (v : Word), addr < Config.gccBase ∨ Config.gccBase + 32 ≤ addr →
    Transaction.read size addr = none ∧ Transaction.write size addr v = none)

/-- R27: the lanes of a register, lane 0 lowest, are its bytes from the least significant up. -/
def Obligations.RegisterIsItsFourLanes : Prop :=
  ∀ w : Word, lane w 3 ++ lane w 2 ++ lane w 1 ++ lane w 0 = w

/-! ### The operations -/

/-- R73: RD_EPOCH, descriptor 0x40, returns EPOCH, whether busy or not, and changes nothing else, so it starts no
conversion; 0 after reset; after a WR_EPOCH the value written, before and after COMPLETE. -/
def Obligations.RdEpochReturnsTheLatch : Prop :=
  (∀ w : Word, decode ⟨0x40#8, w⟩ = .operation .rdEpoch) ∧
  (∀ s : State, exec .rdEpoch s = .next { s with rdata := some s.epoch }) ∧
  exec .rdEpoch State.reset = .next { State.reset with rdata := some 0x00000000#32 } ∧
  (∀ (v : Word) (s t : State), exec (.wrEpoch v) s = .next t →
    exec .rdEpoch t = .next { t with rdata := some v } ∧
    exec .rdEpoch (complete t) = .next { complete t with rdata := some v })

/-- R74: WR_EPOCH, descriptor 0xC0, completes for every value in every state, busy or not and with any EPOCH: EPOCH
takes WDATA whole and BUSY is set; the next COMPLETE converts the new value; the examples of 951782400 and 0xFFFF_FFFF. -/
def Obligations.WrEpochStartsAConversion : Prop :=
  (∀ w : Word, decode ⟨0xC0#8, w⟩ = .operation (.wrEpoch w)) ∧
  (∀ (v : Word) (s : State), ∃ t, exec (.wrEpoch v) s = .next t ∧ t.epoch = v ∧ t.busy = true ∧
    (complete t).registers = { epoch := v, busy := false, date := encDate (convert v), time := encTime (convert v),
                               dayinfo := encDayinfo (convert v) }) ∧
  (∀ (s t : State), exec (.wrEpoch 951782400#32) s = .next t → (complete t).date = 0x1D0207D0#32) ∧
  (∀ (s t : State), exec (.wrEpoch 0xFFFFFFFF#32) s = .next t →
    (complete t).date = 0x0702083A#32 ∧ (complete t).time = 0x00061C0F#32 ∧ (complete t).dayinfo = 0x00250000#32)

/-- The frame of WR_EPOCH: EPOCH and BUSY are the registers it writes (R74). DATE, TIME and DAYINFO stay as stored (the
model's choice, log 10), no response is returned (log 2), the turns to COMPLETE are drawn anew (log 3), and a result
read then returns a free value (log 4). -/
def Obligations.WrEpochChangesNothingElse : Prop :=
  (∀ (v : Word) (s : State), exec (.wrEpoch v) s =
    .next { s with epoch := v, busy := true, rdata := none, turnsLeft := Config.convLatency v s.draws,
                   draws := s.draws + 1 }) ∧
  (∀ (v : Word) (s t : State), exec (.wrEpoch v) s = .next t → ∀ i ∈ [Instr.rdDate, Instr.rdTime, Instr.rdDayinfo],
    exec i t = .next { t with rdata := some (Config.any32 t.draws), draws := t.draws + 1 })

/-- R75: RD_STATUS, descriptor 0x44, returns BUSY zero-extended, at every moment, and changes nothing else, so it does
not clear BUSY; 0 after reset, 1 right after a WR_EPOCH. -/
def Obligations.RdStatusReturnsBusyZeroExtended : Prop :=
  (∀ w : Word, decode ⟨0x44#8, w⟩ = .operation .rdStatus) ∧
  (∀ s : State, exec .rdStatus s = .next { s with rdata := some (if s.busy then 0x00000001#32 else 0x00000000#32) }) ∧
  exec .rdStatus State.reset = .next { State.reset with rdata := some 0x00000000#32 } ∧
  (∀ (v : Word) (s t : State), exec (.wrEpoch v) s = .next t →
    exec .rdStatus t = .next { t with rdata := some 0x00000001#32 })

/-- R76: RD_DATE returns DATE when BUSY = 0 and a free value when BUSY = 1 (log 4), and changes nothing else of the
block; 0x0101_07B2 after reset; the example of EPOCH 0xFFFF_FFFF. -/
def Obligations.RdDateReturnsTheDate : Prop :=
  (∀ s : State, s.busy = false → exec .rdDate s = .next { s with rdata := some s.date }) ∧
  (∀ s : State, s.busy = true →
    exec .rdDate s = .next { s with rdata := some (Config.any32 s.draws), draws := s.draws + 1 }) ∧
  exec .rdDate State.reset = .next { State.reset with rdata := some 0x010107B2#32 } ∧
  (∀ s : State, s.ResultsHold → s.busy = false → s.epoch = 0xFFFFFFFF#32 →
    exec .rdDate s = .next { s with rdata := some 0x0702083A#32 })

/-- R43, R77: RD_TIME returns {0, HOUR, MINUTE, SECOND} of TIME when BUSY = 0, so TIME itself where its reserved bits
are 0, and a free value when BUSY = 1 (log 4), and changes nothing else of the block; the example of EPOCH 86399. -/
def Obligations.RdTimeReturnsTheTime : Prop :=
  (∀ s : State, s.busy = false →
    exec .rdTime s = .next { s with rdata := some (0#8 ++ s.time.extractLsb' 16 8 ++ s.time.extractLsb' 8 8 ++ s.time.extractLsb' 0 8) }) ∧
  (∀ s : State, s.busy = false → s.time.extractLsb' 24 8 = 0#8 →
    exec .rdTime s = .next { s with rdata := some s.time }) ∧
  (∀ s : State, s.busy = true →
    exec .rdTime s = .next { s with rdata := some (Config.any32 s.draws), draws := s.draws + 1 }) ∧
  exec .rdTime State.reset = .next { State.reset with rdata := some 0x00000000#32 } ∧
  (∀ s : State, s.ResultsHold → s.busy = false → s.epoch = 86399#32 →
    exec .rdTime s = .next { s with rdata := some 0x00173B3B#32 })

/-- R43, R78: RD_DAYINFO returns {0, YDAY, 0, LEAP, 0, WDAY} of DAYINFO when BUSY = 0, so DAYINFO itself where its
reserved bits are 0, and a free value when BUSY = 1 (log 4), and changes nothing else of the block; the example of
EPOCH 94694399. -/
def Obligations.RdDayinfoReturnsTheDayinfo : Prop :=
  (∀ s : State, s.busy = false →
    exec .rdDayinfo s = .next { s with rdata := some (0#7 ++ s.dayinfo.extractLsb' 16 9 ++ 0#7
      ++ s.dayinfo.extractLsb' 8 1 ++ 0#5 ++ s.dayinfo.extractLsb' 0 3) }) ∧
  (∀ s : State, s.busy = false → s.dayinfo.extractLsb' 25 7 = 0#7 → s.dayinfo.extractLsb' 9 7 = 0#7 →
    s.dayinfo.extractLsb' 3 5 = 0#5 → exec .rdDayinfo s = .next { s with rdata := some s.dayinfo }) ∧
  (∀ s : State, s.busy = true →
    exec .rdDayinfo s = .next { s with rdata := some (Config.any32 s.draws), draws := s.draws + 1 }) ∧
  exec .rdDayinfo State.reset = .next { State.reset with rdata := some 0x00000004#32 } ∧
  (∀ s : State, s.ResultsHold → s.busy = false → s.epoch = 94694399#32 →
    exec .rdDayinfo s = .next { s with rdata := some 0x016D0100#32 })

/-- R82: "No supported operation can fail": every operation answers a next state, in every state. -/
def Obligations.EverySupportedOperationCompletes : Prop :=
  ∀ (i : Instr) (s : State), ∃ t, exec i s = .next t

/-- R30: "No read has a side effect": a read leaves the registers, and with them BUSY and the conversion in progress,
the inputs still to come and the turns to COMPLETE. -/
def Obligations.ReadsHaveNoSideEffect : Prop :=
  ∀ (i : Instr) (s t : State), i.isRead = true → exec i s = .next t →
    t.registers = s.registers ∧ t.inputs = s.inputs ∧ t.turnsLeft = s.turnsLeft ∧ ∃ v, t.rdata = some v

/-- R20: when BUSY = 0 the reserved bits of TIME and DAYINFO read as 0, whatever is stored; those of STATUS always
do. -/
def Obligations.ReservedBitsReadAsZero : Prop :=
  (∀ s : State, ∃ v, exec .rdStatus s = .next { s with rdata := some v } ∧ v.extractLsb' 1 31 = 0#31) ∧
  (∀ s : State, s.busy = false →
    (∃ v, exec .rdTime s = .next { s with rdata := some v } ∧ v.extractLsb' 24 8 = 0#8) ∧
    (∃ v, exec .rdDayinfo s = .next { s with rdata := some v } ∧
      v.extractLsb' 25 7 = 0#7 ∧ v.extractLsb' 9 7 = 0#7 ∧ v.extractLsb' 3 5 = 0#5))

/-- R16, R19, R78: with BUSY = 0 in a state where the results hold, WDAY names a weekday, so it is never 7, and YDAY
is at most 365, and 365 only with LEAP. -/
def Obligations.DayinfoReadsALegalWeekdayAndDay : Prop :=
  ∀ s : State, s.ResultsHold → s.busy = false → ∃ v, exec .rdDayinfo s = .next { s with rdata := some v } ∧
    (∃ w, Weekday.ofCode (dayinfoWday v) = some w) ∧ dayinfoWday v ≠ 7#3 ∧ (dayinfoYday v).toNat ≤ 365 ∧
    ((dayinfoYday v).toNat = 365 → dayinfoLeap v = true)

/-! ### The engine -/

/-- R79: in a busy state where the engine moves, a step is COMPLETE: the encodings of CONVERT(EPOCH) in the results,
BUSY cleared, nothing else changed; the example of EPOCH 0. -/
def Obligations.CompletePublishesTheConversion : Prop :=
  (∀ s : State, s.busy = true → s.turnsLeft = 0 → step s = .next
    { s with busy := false, date := encDate (convert s.epoch), time := encTime (convert s.epoch),
             dayinfo := encDayinfo (convert s.epoch) }) ∧
  (∀ s : State, s.busy = true → s.turnsLeft = 0 → s.epoch = 0#32 → step s = .next
    { s with busy := false, date := 0x010107B2#32, time := 0x00000000#32, dayinfo := 0x00000004#32 })

/-- R79: "Enabled: exactly when BUSY = 1": in a state that is not busy the engine takes no step, so the outside's
input, or an idle turn, is what a step performs. -/
def Obligations.EngineIsIdleUnlessBusy : Prop :=
  ∀ s : State, s.busy = false → completeEnabled s = false ∧ engineMoves s = false ∧ step s = outsideMoves s ∧
    (s.inputs = [] → ∃ t, step s = .next t ∧ t.registers = s.registers ∧ t.rdata = s.rdata)

/-! ### One step -/

/-- R72: a transaction that decodes is performed as its operation, after it is taken off the inputs and a turn has
passed; a placed table word is performed by the very next step, in the state as it stands (log 1). -/
def Obligations.StepPerformsTheDecodedOperation : Prop :=
  (∀ (s : State) (t : Transaction) (rest : List Input) (i : Instr), engineMoves s = false →
    s.inputs = .access t :: rest → decode t = .operation i →
    step s = exec i { s with inputs := rest, turnsLeft := s.turnsLeft - 1 }) ∧
  (∀ (s : State) (nbits w : Nat) (i : Instr), decodeTableWord nbits w = some i →
    step (s.withFetchWord nbits w) = exec i s)

/-- R80, R82: a transaction outside the six is a fault that carries the descriptor, and WDATA for a write; an
instruction fetch from the window is a fault (R28, R38). The fault as an outcome (log 6) and the fetch as an input of its
own (log 7) are the model's form. -/
def Obligations.UnsupportedAccessFaults : Prop :=
  (∀ (s : State) (t : Transaction) (rest : List Input), engineMoves s = false → s.inputs = .access t :: rest →
    t.desc ∉ [0x40#8, 0xC0#8, 0x44#8, 0x48#8, 0x4C#8, 0x50#8] →
    step s = .fault (.unsupported t.desc (if (Descriptor.ofByte t.desc).write then some t.wdata else none))) ∧
  (∀ (s : State) (off : BitVec 5) (rest : List Input), engineMoves s = false → s.inputs = .fetch off :: rest →
    step s = .fault (.instructionFetch off))

/-- R80: a model "records a fault carrying `desc`, never clears it": where a run comes to a state whose next event is an
access outside the six, every longer run is the fault with that descriptor, and WDATA for a write (R82); likewise for
an instruction fetch from the window (R28, R38). That the fault outcome is the mark is the model's form (log 6). -/
def Obligations.FaultIsNeverCleared : Prop :=
  (∀ (k j : Nat) (s u : State) (t : Transaction) (rest : List Input), run k s = .next u → engineMoves u = false →
    u.inputs = .access t :: rest → t.desc ∉ [0x40#8, 0xC0#8, 0x44#8, 0x48#8, 0x4C#8, 0x50#8] →
    run (k + j + 1) s =
      .fault (.unsupported t.desc (if (Descriptor.ofByte t.desc).write then some t.wdata else none))) ∧
  (∀ (k j : Nat) (s u : State) (off : BitVec 5) (rest : List Input), run k s = .next u → engineMoves u = false →
    u.inputs = .fetch off :: rest → run (k + j + 1) s = .fault (.instructionFetch off))

/-- R80, R82: Unsupported is the only cause: a step faults only at an access outside the six or an instruction fetch
(R28, R38). R32: a step is refused only where the host breaks its obligations on the window. The fault as an outcome
(log 6), the fetch as an input of its own (log 7) and the breach as an input that is refused by name (log 14) are the
model's form. -/
def Obligations.OnlyUnsupportedAccessesStopTheRun : Prop :=
  (∀ (s : State) (f : Fault), step s = .fault f →
    (∃ t rest, s.inputs = .access t :: rest ∧ (decode t).toOption = none) ∨ ∃ off rest, s.inputs = .fetch off :: rest) ∧
  (∀ (s : State) (r : Refusal), step s = .refused r →
    ∃ b rest, s.inputs = .breach b :: rest ∧ r = .hostBreaksObligation b)

/-- R32: "A host that breaks them is outside this spec: a model should refuse such a program" (the form is the
model's, log 14). -/
def Obligations.BreachOfTheWindowObligationsIsRefused : Prop :=
  ∀ (s : State) (b : Breach) (rest : List Input), engineMoves s = false → s.inputs = .breach b :: rest →
    step s = .refused (.hostBreaksObligation b)

/-- R34: inputs are performed one at a time, in their order: COMPLETE leaves them, any other step takes the first. -/
def Obligations.InputsAreTakenInOrder : Prop :=
  ∀ s t : State, step s = .next t →
    (engineMoves s = true → t.inputs = s.inputs) ∧ (engineMoves s = false → t.inputs = s.inputs.tail)

/-- R34, R86: while busy, either agent may move next: for some number of turns the step is COMPLETE, and for some it
is the host's operation (log 3). -/
def Obligations.EitherAgentMayMoveNext : Prop :=
  ∀ (s : State) (t : Transaction) (rest : List Input) (i : Instr), s.busy = true → s.inputs = .access t :: rest →
    decode t = .operation i →
    (∃ n, step { s with turnsLeft := n } = .next (complete { s with turnsLeft := n })) ∧
    (∃ n m, step { s with turnsLeft := n } = exec i { s with inputs := rest, turnsLeft := m })

/-! ### Reset, power and clock -/

/-- R95: the reset values, in the state after reset and after a reset from any state, busy or not; the results are
the encoding of CONVERT(0). -/
def Obligations.ResetGivesEveryRegisterItsResetValue : Prop :=
  State.reset.registers =
    { epoch := 0x00000000#32, busy := false, date := 0x010107B2#32, time := 0x00000000#32, dayinfo := 0x00000004#32 } ∧
  (∀ (s : State) (rest : List Input), engineMoves s = false → s.inputs = .reset :: rest →
    ∃ t, step s = .next t ∧ t.registers = State.reset.registers ∧ t.inputs = rest) ∧
  State.reset.date = encDate (convert 0#32) ∧ State.reset.time = encTime (convert 0#32) ∧
  State.reset.dayinfo = encDayinfo (convert 0#32)

/-- R94: loss of power has the effect of a reset; while the clock is gated no transaction is performed, COMPLETE does
not happen and the state is kept (one step for the whole stretch is the model's choice, log 12, log 13). -/
def Obligations.PowerLossResetsAndGatedClockKeepsState : Prop :=
  (∀ (s : State) (rest : List Input), engineMoves s = false → s.inputs = .powerLoss :: rest →
    ∃ t, step s = .next t ∧ t.registers = State.reset.registers ∧ t.inputs = rest) ∧
  (∀ (s : State) (rest : List Input), engineMoves s = false → s.inputs = .clockGated :: rest →
    step s = .next { s with inputs := rest })

/-! ### Whole-machine rules -/

/-- R14: "EPOCH is written only by WR_EPOCH and by reset. The engine never changes it." -/
def Obligations.OnlyWrEpochAndResetChangeEpoch : Prop :=
  ∀ s t : State, step s = .next t → t.epoch ≠ s.epoch →
    nextEvent s = some (.access (.wrEpoch t.epoch)) ∨ nextEvent s = some .reset

/-- R15, R22: BUSY is set by WR_EPOCH and cleared by COMPLETE and by reset, and nothing else writes it. -/
def Obligations.OnlyWrEpochSetsAndCompleteClearsBusy : Prop :=
  ∀ s t : State, step s = .next t →
    (s.busy = false → t.busy = true → nextEvent s = some (.access (.wrEpoch t.epoch))) ∧
    (s.busy = true → t.busy = false → nextEvent s = some .complete ∨ nextEvent s = some .reset)

/-- R17 to R19, R22: the stored results, LEAP among them, change only at COMPLETE and at reset (that WR_EPOCH leaves
them is the model's choice, log 10). -/
def Obligations.OnlyCompleteAndResetChangeResults : Prop :=
  ∀ s t : State, step s = .next t → t.date ≠ s.date ∨ t.time ≠ s.time ∨ t.dayinfo ≠ s.dayinfo →
    nextEvent s = some .complete ∨ nextEvent s = some .reset

/-- R21: the result invariant holds after reset. -/
def Obligations.ResultsHoldAtReset : Prop := State.reset.ResultsHold

/-- R21: "every step preserves it", from every state in which it holds. -/
def Obligations.StepKeepsResults : Prop :=
  ∀ s t : State, s.ResultsHold → step s = .next t → t.ResultsHold

/-- R21: "In every reachable state" the results hold: after every interleaving from reset that R34 allows, every
`any32` arbitrary and the stored results arbitrary while busy. -/
def Obligations.ResultsHoldInEveryInterleaving : Prop :=
  ∀ (trace : List (Event × Option Word)) (b : Registers), Execution Registers.reset trace b → b.ResultsHold

/-- R34: every step of the machine is an event that the ordering model allows, with the response it allows. -/
def Obligations.EveryStepIsAnAllowedEvent : Prop :=
  ∀ s t : State, s.ResultsHold → step s = .next t →
    ∃ e, nextEvent s = some e ∧ Allowed e s.registers (responseTo e t) t.registers

/-- R35, over every interleaving after a WR_EPOCH of `v` with no other write and no reset: while COMPLETE has not
happened STATUS reads 1; once a read of STATUS has returned 0, COMPLETE has happened and every later read of a result
is the encoding of CONVERT(v). -/
def Obligations.PollingShowsCompletion : Prop :=
  ∀ (v : Word) (b b0 b1 : Registers) (trace : List (Event × Option Word)),
    Allowed (.access (.wrEpoch v)) b none b0 → Execution b0 trace b1 → (∀ x ∈ trace, x.1.keepsEpoch = true) →
    ((∀ x ∈ trace, x.1 ≠ .complete) → ∀ r, (.access .rdStatus, r) ∈ trace → r = some 1#32) ∧
    ((.access .rdStatus, some 0#32) ∈ trace →
      (∃ r, (.complete, r) ∈ trace) ∧
      ∀ (r : Option Word) (b2 : Registers),
        (Allowed (.access .rdDate) b1 r b2 → r = some (encDate (convert v))) ∧
        (Allowed (.access .rdTime) b1 r b2 → r = some (encTime (convert v))) ∧
        (Allowed (.access .rdDayinfo) b1 r b2 → r = some (encDayinfo (convert v))))

/-- R30, R74, R79, R94, R99, on the machine: in every run of reads and gated clocks after a write of EPOCH, for every
number of turns the conversion takes, the registers are untouched until COMPLETE, and then hold that input's results.
That the stored DATE, TIME and DAYINFO stay as they are while BUSY = 1 is the model's choice (log 10): R21 promises
nothing of them. The turns to COMPLETE (log 3) and one step for a gated clock (log 13) are the model's form. -/
def Obligations.RunOfReadsPublishesOnlyItsInput : Prop :=
  ∀ (s t : State) (k : Nat), s.busy = true → s.onlyReadsFollow → run k s = .next t →
    (t.busy = true ∧ t.registers = s.registers) ∨
    t.registers = { epoch := s.epoch, busy := false, date := encDate (convert s.epoch),
                    time := encTime (convert s.epoch), dayinfo := encDayinfo (convert s.epoch) }

/-- R79, R102: "when BUSY = 1 and the host issues no further WR_EPOCH", COMPLETE happens; the bound is the turns left
and the inputs that follow (a finite number of turns for CONV_LATENCY and one step for a gated clock are the model's
form, log 3 and log 13). -/
def Obligations.ConversionCompletesOnceWritesStop : Prop :=
  ∀ s : State, s.busy = true → s.onlyReadsFollow →
    ∃ k t, k ≤ s.turnsLeft + s.inputs.length + 1 ∧ run k s = .next t ∧ t.busy = false ∧ t.epoch = s.epoch ∧
      t.ResultsHold

/-- R102: completion is not promised to a host that keeps writing: any number of writes with no COMPLETE between or
after them is an allowed interleaving. -/
def Obligations.EndlessWritesArePromisedNothing : Prop :=
  ∀ (b : Registers) (vs : List Word), ∃ b', Execution b (vs.map fun v => (.access (.wrEpoch v), none)) b' ∧
    (vs ≠ [] → b'.busy = true)

/-- R63: the results read depend on EPOCH alone: two states in which the results hold, not busy and with one EPOCH,
return the same beats, whatever their histories. -/
def Obligations.ResultsDependOnEpochAlone : Prop :=
  ∀ s t : State, s.ResultsHold → t.ResultsHold → s.busy = false → t.busy = false → s.epoch = t.epoch →
    ∀ i ∈ [Instr.rdDate, Instr.rdTime, Instr.rdDayinfo], ∃ s' t', exec i s = .next s' ∧ exec i t = .next t' ∧
      s'.rdata = t'.rdata

/-- R47: a read statement performs its operation and assigns the response to its variable; a write statement performs
WR_EPOCH with its expression's value; each then goes on to the next statement. One turn a statement is the model's
choice (log 18), and so is the closed system, in which the statement's transaction is the only input and the block's
other inputs are dropped, so that no other host context (R100, D22), reset or gated clock acts (log 25). -/
def Obligations.BusStatementsPerformTheirTransaction : Prop :=
  (∀ (y : HostProgram.System) (r : HostProgram.Readable) (x : HostProgram.Var),
    engineMoves y.block = false → y.statement = .rd r x →
    ∃ b v, exec r.operation { y.block with inputs := [], turnsLeft := y.block.turnsLeft - 1 } = .next b ∧
      b.rdata = some v ∧ y.step = .next { y with block := b, next := y.next + 1, vars := (x, v) :: y.vars }) ∧
  (∀ (y : HostProgram.System) (e : HostProgram.Expr), engineMoves y.block = false → y.statement = .wrEpoch e →
    ∃ b, exec (.wrEpoch (e.value y.vars)) { y.block with inputs := [], turnsLeft := y.block.turnsLeft - 1 } = .next b ∧
      y.step = .next { y with block := b, next := y.next + 1 })

/-! ### The conversion function -/

/-- R52: the leap-year rule, and the century years of the input range: 2000 is leap and 2100 is not. -/
def Obligations.LeapYearRuleIsGregorian : Prop :=
  (∀ y : Nat, isLeap y = true ↔ y % 4 = 0 ∧ (y % 100 ≠ 0 ∨ y % 400 = 0)) ∧
  (∀ y : Nat, 1970 ≤ y → y ≤ 2106 → y % 100 = 0 → (isLeap y = true ↔ y = 2000) ∧ (isLeap y = false ↔ y = 2100)) ∧
  [1972, 1996, 2000, 2004].all isLeap = true ∧ [1970, 1971, 2001, 2100].any isLeap = false

/-- R51, R54, R58: the fields that need no loop: the weekday from the whole days alone, the time from the time of
day, and the day one more than the month loop's. -/
def Obligations.TimeAndWeekdayFieldsFollowTheDivisions : Prop :=
  ∀ s : Word,
    (convert s).weekday = (s.toNat / 86400 + 4) % 7 ∧
    (convert s).hour = s.toNat % 86400 / 3600 ∧
    (convert s).minute = s.toNat % 86400 / 60 % 60 ∧
    (convert s).second = s.toNat % 60 ∧
    (convert s).day = (resolveMonth (convert s).leap (convert s).yday).1 + 1 ∧
    (∀ t : Word, s.toNat / 86400 = t.toNat / 86400 → (convert s).weekday = (convert t).weekday)

/-- R55: on every reachable number of days the year loop leaves by its exit test, with a zero-based day of the year,
having subtracted whole years, at most 136, and gives CONVERT its year and leap status; day 365 of 1970 is the first of 1971. -/
def Obligations.YearLoopResolvesTheYear : Prop :=
  (∀ days : Nat, days ≤ 49710 →
    (resolveYear days).1 < ylen (resolveYear days).2 ∧ 1970 ≤ (resolveYear days).2 ∧
    (resolveYear days).2 - 1970 ≤ 136 ∧
    daysOfYears ((resolveYear days).2 - 1970) + (resolveYear days).1 = days) ∧
  (∀ s : Word, (convert s).year = (resolveYear (s.toNat / 86400)).2 ∧ (convert s).leap = isLeap (convert s).year) ∧
  resolveYear 365 = (0, 1971)

/-- R57: from any day of a year, the month loop leaves by its exit test in one of the 12 months, having subtracted
whole months, at most 11, and gives CONVERT its month; day 59 is March 1 in a common year and February 29 in a leap year; day 365 occurs only in a
leap year and is December 31. -/
def Obligations.MonthLoopResolvesTheMonth : Prop :=
  (∀ (year yday : Nat), yday < ylen year →
    1 ≤ (resolveMonth (isLeap year) yday).2 ∧ (resolveMonth (isLeap year) yday).2 ≤ 12 ∧
    (resolveMonth (isLeap year) yday).1 < mlen (resolveMonth (isLeap year) yday).2 (isLeap year) ∧
    daysOfMonths (isLeap year) ((resolveMonth (isLeap year) yday).2 - 1) + (resolveMonth (isLeap year) yday).1 = yday ∧
    (yday = 365 → isLeap year = true)) ∧
  (∀ s : Word, (convert s).yday = (resolveYear (s.toNat / 86400)).1 ∧
    (convert s).month = (resolveMonth (convert s).leap (convert s).yday).2) ∧
  resolveMonth false 59 = (0, 3) ∧ resolveMonth true 59 = (28, 2) ∧ resolveMonth true 365 = (30, 12)

/-- R56: the month lengths, February's by the leap flag; they sum to 365, and in every year to that year's length. -/
def Obligations.MonthLengthsSumToTheYear : Prop :=
  (∀ leap : Bool, ([1, 2, 3, 4, 5, 6, 7, 8, 9, 10, 11, 12].map fun m => mlen m leap) =
    [31, if leap then 29 else 28, 31, 30, 31, 30, 31, 31, 30, 31, 30, 31]) ∧
  daysOfMonths false 12 = 365 ∧ (∀ year : Nat, daysOfMonths (isLeap year) 12 = ylen year)

/-- R60: the ranges of every field, and the day of the year as its month and day give it. -/
def Obligations.ConvertStaysInRange : Prop :=
  ∀ s : Word, (convert s).InRange ∧
    (convert s).yday = daysOfMonths (convert s).leap ((convert s).month - 1) + (convert s).day - 1

/-- R62: the two ends of the input range, and the greatest numbers of loop steps. -/
def Obligations.InputRangeEndsAndLoopBounds : Prop :=
  convert 0#32 = { year := 1970, month := 1, day := 1, hour := 0, minute := 0, second := 0, weekday := 4,
                   leap := false, yday := 0 } ∧
  convert 0xFFFFFFFF#32 = { year := 2106, month := 2, day := 7, hour := 6, minute := 28, second := 15, weekday := 0,
                            leap := false, yday := 37 } ∧
  (∀ s : Word, (convert s).year ≤ 2106 ∧ (convert s).year - 1970 ≤ 136 ∧ (convert s).month - 1 ≤ 11)

/-- R66: TO_EPOCH of CONVERT(s) is s, so CONVERT is injective, and the weekday is that of TO_EPOCH. -/
def Obligations.ConvertRoundTrips : Prop :=
  (∀ s : Word, (convert s).toEpoch = s.toNat ∧ (convert s).weekday = ((convert s).toEpoch / 86400 + 4) % 7) ∧
  (∀ s t : Word, convert s = convert t → s = t)

/-- R65, the other direction: a date and time of the calendar whose TO_EPOCH is a 32-bit value is what CONVERT gives
for it. -/
def Obligations.ConvertInvertsToEpoch : Prop :=
  ∀ year month day hour minute second : Nat, 1970 ≤ year → 1 ≤ month → month ≤ 12 → 1 ≤ day →
    day ≤ mlen month (isLeap year) → hour ≤ 23 → minute ≤ 59 → second ≤ 59 →
    toEpoch year month day hour minute second < 2 ^ 32 →
    ∃ r, convert (BitVec.ofNat 32 (toEpoch year month day hour minute second)) = r ∧ r.year = year ∧
      r.month = month ∧ r.day = day ∧ r.hour = hour ∧ r.minute = minute ∧ r.second = second ∧ r.leap = isLeap year

/-- R67: the weekday has period 604800 where both inputs are 32-bit values. -/
def Obligations.WeekdayHasPeriodOfSevenDays : Prop :=
  ∀ n : Word, n.toNat + 604800 ≤ 2 ^ 32 - 1 → (convert n).weekday = (convert (n + 604800#32)).weekday

/-- R68: the ends of February, in leap and common years, and the rule's table. -/
def Obligations.FebruaryRollsOver : Prop :=
  (∀ s : Word, s.toNat + 1 < 2 ^ 32 → (convert s).month = 2 → (convert s).hour = 23 → (convert s).minute = 59 →
    (convert s).second = 59 →
    ∀ n, n = convert (s + 1#32) →
    n.year = (convert s).year ∧ n.hour = 0 ∧ n.minute = 0 ∧ n.second = 0 ∧
    ((convert s).day = 28 → isLeap (convert s).year = true → n.month = 2 ∧ n.day = 29) ∧
    ((convert s).day = 29 → n.month = 3 ∧ n.day = 1) ∧
    ((convert s).day = 28 → isLeap (convert s).year = false → n.month = 3 ∧ n.day = 1)) ∧
  ([951782399, 951782400, 951868799, 951868800, 983404799, 983404800, 4107542399, 4107542400].map fun s =>
      let r := convert (BitVec.ofNat 32 s)
      (r.year, r.month, r.day, r.hour, r.minute, r.second)) =
    [(2000, 2, 28, 23, 59, 59), (2000, 2, 29, 0, 0, 0), (2000, 2, 29, 23, 59, 59), (2000, 3, 1, 0, 0, 0),
     (2001, 2, 28, 23, 59, 59), (2001, 3, 1, 0, 0, 0), (2100, 2, 28, 23, 59, 59), (2100, 3, 1, 0, 0, 0)]

/-- R64: "Each field fits its width by rule R60, so no encoder truncates": every field is read back from the register
it is encoded in, and the example of CONVERT(0). -/
def Obligations.EncodersLoseNoField : Prop :=
  (∀ s : Word,
    (dateYear (encDate (convert s))).toNat = (convert s).year ∧
    (dateMonth (encDate (convert s))).toNat = (convert s).month ∧
    (dateDay (encDate (convert s))).toNat = (convert s).day ∧
    (timeHour (encTime (convert s))).toNat = (convert s).hour ∧
    (timeMinute (encTime (convert s))).toNat = (convert s).minute ∧
    (timeSecond (encTime (convert s))).toNat = (convert s).second ∧
    (encTime (convert s)).extractLsb' 24 8 = 0#8 ∧
    (dayinfoWday (encDayinfo (convert s))).toNat = (convert s).weekday ∧
    dayinfoLeap (encDayinfo (convert s)) = (convert s).leap ∧
    (dayinfoYday (encDayinfo (convert s))).toNat = (convert s).yday ∧
    (encDayinfo (convert s)).extractLsb' 25 7 = 0#7 ∧ (encDayinfo (convert s)).extractLsb' 9 7 = 0#7 ∧
    (encDayinfo (convert s)).extractLsb' 3 5 = 0#5) ∧
  encDate (convert 0#32) = 0x010107B2#32 ∧ encTime (convert 0#32) = 0x00000000#32 ∧
  encDayinfo (convert 0#32) = 0x00000004#32
end

