-- ==== Sys2Proof/Laws/Convert.lean ====
section
/-! SUPPORT. The two loops of CONVERT, their tables and the beats: what each can do, said once. -/

namespace Sys2Proof.Machine

/-! ### Year lengths and the year loop -/

/-- A year has 365 or 366 days (R53). -/
theorem ylen_bounds (y : Nat) : 365 ≤ ylen y ∧ ylen y ≤ 366 := by
  unfold ylen; split <;> omega

/-- More years have more days. -/
theorem daysOfYears_mono {m n : Nat} (h : m ≤ n) : daysOfYears m ≤ daysOfYears n := by
  induction h with
  | refl => exact Nat.le_refl _
  | step _ ih => exact Nat.le_trans ih (Nat.le_add_right _ _)

/-- The year loop accounts for every day it subtracts. -/
theorem yearLoop_accounts (fuel days n : Nat) :
    ∃ m, n ≤ m ∧ (yearLoop fuel days (1970 + n)).2 = 1970 + m ∧
      daysOfYears m + (yearLoop fuel days (1970 + n)).1 = daysOfYears n + days := by
  induction fuel generalizing days n with
  | zero => exact ⟨n, Nat.le_refl _, rfl, rfl⟩
  | succ fuel ih =>
    unfold yearLoop
    split
    · exact ⟨n, Nat.le_refl _, rfl, rfl⟩
    · obtain ⟨m, hnm, hy, hd⟩ := ih (days - ylen (1970 + n)) (n + 1)
      refine ⟨m, by omega, hy, ?_⟩
      rw [show 1970 + n + 1 = 1970 + (n + 1) from rfl, hd]
      simp only [daysOfYears]
      omega

/-- The year loop leaves by its exit test when it has tests enough: each subtracts at least 365 days. -/
theorem yearLoop_exits {fuel days year : Nat} (h : days < 365 * fuel) :
    (yearLoop fuel days year).1 < ylen (yearLoop fuel days year).2 := by
  induction fuel generalizing days year with
  | zero => omega
  | succ fuel ih =>
    unfold yearLoop
    split
    · assumption
    · exact ih (by have := ylen_bounds year; omega)

/-- A number of days is whole years and a day of the next in one way only. -/
theorem daysOfYears_unique {m n a b : Nat} (ha : a < ylen (1970 + m)) (hb : b < ylen (1970 + n))
    (h : daysOfYears m + a = daysOfYears n + b) : m = n ∧ a = b := by
  obtain hl | rfl | hl := Nat.lt_trichotomy m n
  · have hm : daysOfYears m + ylen (1970 + m) ≤ daysOfYears n := daysOfYears_mono hl
    omega
  · omega
  · have hn : daysOfYears n + ylen (1970 + n) ≤ daysOfYears m := daysOfYears_mono hl
    omega

/-! ### Month lengths and the month loop -/

/-- The month loop accounts for every day it subtracts. -/
theorem monthLoop_accounts (leap : Bool) (fuel days n : Nat) :
    ∃ m, n ≤ m ∧ m ≤ n + fuel ∧ (monthLoop leap fuel days (n + 1)).2 = m + 1 ∧
      daysOfMonths leap m + (monthLoop leap fuel days (n + 1)).1 = daysOfMonths leap n + days := by
  induction fuel generalizing days n with
  | zero => exact ⟨n, Nat.le_refl _, Nat.le_refl _, rfl, rfl⟩
  | succ fuel ih =>
    unfold monthLoop
    split
    · exact ⟨n, Nat.le_refl _, by omega, rfl, rfl⟩
    · obtain ⟨m, hnm, hmf, hy, hd⟩ := ih (days - mlen (n + 1) leap) (n + 1)
      refine ⟨m, by omega, by omega, hy, ?_⟩
      rw [hd]
      simp only [daysOfMonths]
      omega

/-- The month loop leaves by its exit test when the days fit in the months it has tests for. -/
theorem monthLoop_exits {leap : Bool} {fuel days n : Nat}
    (h : daysOfMonths leap n + days < daysOfMonths leap (n + fuel)) :
    (monthLoop leap fuel days (n + 1)).1 < mlen (monthLoop leap fuel days (n + 1)).2 leap := by
  induction fuel generalizing days n with
  | zero => rw [Nat.add_zero] at h; omega
  | succ fuel ih =>
    unfold monthLoop
    split
    · assumption
    · refine ih ?_
      rw [show n + 1 + fuel = n + (fuel + 1) by omega]
      have hstep : daysOfMonths leap (n + 1) = daysOfMonths leap n + mlen (n + 1) leap := rfl
      omega

/-- More months have more days. -/
theorem daysOfMonths_mono (leap : Bool) {m n : Nat} (h : m ≤ n) : daysOfMonths leap m ≤ daysOfMonths leap n := by
  induction h with
  | refl => exact Nat.le_refl _
  | step _ ih => exact Nat.le_trans ih (Nat.le_add_right _ _)

/-- A day of the year is whole months and a day of the next in one way only. -/
theorem daysOfMonths_unique {leap : Bool} {m n a b : Nat} (ha : a < mlen (m + 1) leap) (hb : b < mlen (n + 1) leap)
    (h : daysOfMonths leap m + a = daysOfMonths leap n + b) : m = n ∧ a = b := by
  obtain hl | rfl | hl := Nat.lt_trichotomy m n
  · have hm : daysOfMonths leap m + mlen (m + 1) leap ≤ daysOfMonths leap n := daysOfMonths_mono leap hl
    omega
  · omega
  · have hn : daysOfMonths leap n + mlen (n + 1) leap ≤ daysOfMonths leap m := daysOfMonths_mono leap hl
    omega

/-- A 12-month year has the days of its months (R56), by its leap flag. -/
theorem daysOfMonths_twelve (leap : Bool) : daysOfMonths leap 12 = if leap then 366 else 365 := by
  cases leap <;> decide

/-! ### CONVERT, field by field -/

theorem convert_year (s : Word) : (convert s).year = (resolveYear (daysOf s.toNat)).2 := rfl
theorem convert_yday (s : Word) : (convert s).yday = (resolveYear (daysOf s.toNat)).1 := rfl
theorem convert_leap (s : Word) : (convert s).leap = isLeap (convert s).year := rfl
theorem convert_month (s : Word) : (convert s).month = (resolveMonth (convert s).leap (convert s).yday).2 := rfl
theorem convert_day (s : Word) : (convert s).day = (resolveMonth (convert s).leap (convert s).yday).1 + 1 := rfl
theorem convert_hour (s : Word) : (convert s).hour = todOf s.toNat / 3600 := rfl
theorem convert_minute (s : Word) : (convert s).minute = todOf s.toNat / 60 % 60 := rfl
theorem convert_second (s : Word) : (convert s).second = todOf s.toNat % 60 := rfl
theorem convert_weekday (s : Word) : (convert s).weekday = weekdayOf (daysOf s.toNat) := rfl

/-- An input has at most 49710 whole days (R51, R61). -/
theorem daysOf_le (s : Word) : daysOf s.toNat ≤ 49710 := by
  have := s.isLt
  unfold daysOf
  omega

/-! ### The beats -/

/-- The low field of a concatenation. -/
theorem append_low {a b : Nat} (x : BitVec a) (y : BitVec b) : (x ++ y).extractLsb' 0 b = y := by
  apply BitVec.eq_of_getLsbD_eq
  intro i hi
  simp [BitVec.getLsbD_append, hi]

/-- A field above the low part of a concatenation. -/
theorem append_high {a b k : Nat} (x : BitVec a) (y : BitVec b) (i : Nat) (h : b ≤ i) :
    (x ++ y).extractLsb' i k = x.extractLsb' (i - b) k := by
  apply BitVec.eq_of_getLsbD_eq
  intro j hj
  simp only [BitVec.getLsbD_extractLsb', BitVec.getLsbD_append, hj, decide_true, Bool.true_and]
  rw [if_neg (by omega)]
  congr 1
  omega

/-- A word is its two top fields and the rest, put together again. -/
theorem word_fields {a b c : Nat} (w : Word) (h : a + b + c = 32) :
    (w.extractLsb' (b + c) a ++ w.extractLsb' c b ++ w.extractLsb' 0 c).cast h = w := by
  apply BitVec.eq_of_getLsbD_eq
  intro i hi
  simp only [BitVec.getLsbD_cast, BitVec.getLsbD_append, BitVec.getLsbD_extractLsb']
  split
  · simp_all
  · split
    · rw [show c + (i - c) = i by omega]; simp; omega
    · rw [show b + c + (i - c - b) = i by omega]; simp; omega

/-- DATE has no reserved bits: its beat is the register. -/
@[simp] theorem dateBeat_eq (w : Word) : dateBeat w = w := word_fields (a := 8) (b := 8) (c := 16) w rfl

/-- DAYINFO.LEAP as a field of one bit. -/
theorem dayinfoLeap_field (w : Word) : w.extractLsb' 8 1 = BitVec.ofBool (dayinfoLeap w) := by
  ext i hi
  obtain rfl : i = 0 := by omega
  simp [dayinfoLeap]

end Sys2Proof.Machine
end

