-- ==== Sys2Proof/Laws/State.lean ====
section
/-! SUPPORT. One lemma per field per update of the state, so that no proof unfolds a record update. -/

namespace Sys2Proof.Machine

variable (s : State)

@[simp] theorem registers_epoch : s.registers.epoch = s.epoch := rfl
@[simp] theorem registers_busy : s.registers.busy = s.busy := rfl
@[simp] theorem registers_date : s.registers.date = s.date := rfl
@[simp] theorem registers_time : s.registers.time = s.time := rfl
@[simp] theorem registers_dayinfo : s.registers.dayinfo = s.dayinfo := rfl

@[simp] theorem setBusy_epoch : s.setBusy.epoch = s.epoch := rfl
@[simp] theorem setBusy_busy : s.setBusy.busy = true := rfl
@[simp] theorem setBusy_date : s.setBusy.date = s.date := rfl
@[simp] theorem setBusy_time : s.setBusy.time = s.time := rfl
@[simp] theorem setBusy_dayinfo : s.setBusy.dayinfo = s.dayinfo := rfl
@[simp] theorem setBusy_rdata : s.setBusy.rdata = s.rdata := rfl
@[simp] theorem setBusy_inputs : s.setBusy.inputs = s.inputs := rfl
@[simp] theorem setBusy_turnsLeft : s.setBusy.turnsLeft = s.turnsLeft := rfl
@[simp] theorem setBusy_draws : s.setBusy.draws = s.draws := rfl

@[simp] theorem clearBusy_epoch : s.clearBusy.epoch = s.epoch := rfl
@[simp] theorem clearBusy_busy : s.clearBusy.busy = false := rfl
@[simp] theorem clearBusy_date : s.clearBusy.date = s.date := rfl
@[simp] theorem clearBusy_time : s.clearBusy.time = s.time := rfl
@[simp] theorem clearBusy_dayinfo : s.clearBusy.dayinfo = s.dayinfo := rfl
@[simp] theorem clearBusy_rdata : s.clearBusy.rdata = s.rdata := rfl
@[simp] theorem clearBusy_inputs : s.clearBusy.inputs = s.inputs := rfl
@[simp] theorem clearBusy_turnsLeft : s.clearBusy.turnsLeft = s.turnsLeft := rfl
@[simp] theorem clearBusy_draws : s.clearBusy.draws = s.draws := rfl

@[simp] theorem loadEpoch_epoch (v : Word) : (loadEpoch v s).epoch = v := rfl
@[simp] theorem loadEpoch_busy (v : Word) : (loadEpoch v s).busy = s.busy := rfl
@[simp] theorem loadEpoch_date (v : Word) : (loadEpoch v s).date = s.date := rfl
@[simp] theorem loadEpoch_time (v : Word) : (loadEpoch v s).time = s.time := rfl
@[simp] theorem loadEpoch_dayinfo (v : Word) : (loadEpoch v s).dayinfo = s.dayinfo := rfl
@[simp] theorem loadEpoch_rdata (v : Word) : (loadEpoch v s).rdata = s.rdata := rfl
@[simp] theorem loadEpoch_inputs (v : Word) : (loadEpoch v s).inputs = s.inputs := rfl
@[simp] theorem loadEpoch_turnsLeft (v : Word) : (loadEpoch v s).turnsLeft = s.turnsLeft := rfl
@[simp] theorem loadEpoch_draws (v : Word) : (loadEpoch v s).draws = s.draws := rfl

@[simp] theorem noResponse_epoch : (noResponse s).epoch = s.epoch := rfl
@[simp] theorem noResponse_busy : (noResponse s).busy = s.busy := rfl
@[simp] theorem noResponse_date : (noResponse s).date = s.date := rfl
@[simp] theorem noResponse_time : (noResponse s).time = s.time := rfl
@[simp] theorem noResponse_dayinfo : (noResponse s).dayinfo = s.dayinfo := rfl
@[simp] theorem noResponse_rdata : (noResponse s).rdata = none := rfl
@[simp] theorem noResponse_inputs : (noResponse s).inputs = s.inputs := rfl
@[simp] theorem noResponse_turnsLeft : (noResponse s).turnsLeft = s.turnsLeft := rfl
@[simp] theorem noResponse_draws : (noResponse s).draws = s.draws := rfl

@[simp] theorem drawLatency_epoch : (drawLatency s).epoch = s.epoch := rfl
@[simp] theorem drawLatency_busy : (drawLatency s).busy = s.busy := rfl
@[simp] theorem drawLatency_date : (drawLatency s).date = s.date := rfl
@[simp] theorem drawLatency_time : (drawLatency s).time = s.time := rfl
@[simp] theorem drawLatency_dayinfo : (drawLatency s).dayinfo = s.dayinfo := rfl
@[simp] theorem drawLatency_rdata : (drawLatency s).rdata = s.rdata := rfl
@[simp] theorem drawLatency_inputs : (drawLatency s).inputs = s.inputs := rfl
@[simp] theorem drawLatency_turnsLeft : (drawLatency s).turnsLeft = Config.convLatency s.epoch s.draws := rfl
@[simp] theorem drawLatency_draws : (drawLatency s).draws = s.draws + 1 := rfl

@[simp] theorem startConversion_epoch (v : Word) : (startConversion v s).epoch = v := rfl
@[simp] theorem startConversion_busy (v : Word) : (startConversion v s).busy = true := rfl
@[simp] theorem startConversion_date (v : Word) : (startConversion v s).date = s.date := rfl
@[simp] theorem startConversion_time (v : Word) : (startConversion v s).time = s.time := rfl
@[simp] theorem startConversion_dayinfo (v : Word) : (startConversion v s).dayinfo = s.dayinfo := rfl
@[simp] theorem startConversion_rdata (v : Word) : (startConversion v s).rdata = none := rfl
@[simp] theorem startConversion_inputs (v : Word) : (startConversion v s).inputs = s.inputs := rfl
@[simp] theorem startConversion_turnsLeft (v : Word) : (startConversion v s).turnsLeft = Config.convLatency v s.draws := rfl
@[simp] theorem startConversion_draws (v : Word) : (startConversion v s).draws = s.draws + 1 := rfl

@[simp] theorem passTurn_epoch : (passTurn s).epoch = s.epoch := rfl
@[simp] theorem passTurn_busy : (passTurn s).busy = s.busy := rfl
@[simp] theorem passTurn_date : (passTurn s).date = s.date := rfl
@[simp] theorem passTurn_time : (passTurn s).time = s.time := rfl
@[simp] theorem passTurn_dayinfo : (passTurn s).dayinfo = s.dayinfo := rfl
@[simp] theorem passTurn_rdata : (passTurn s).rdata = s.rdata := rfl
@[simp] theorem passTurn_inputs : (passTurn s).inputs = s.inputs := rfl
@[simp] theorem passTurn_turnsLeft : (passTurn s).turnsLeft = s.turnsLeft - 1 := rfl
@[simp] theorem passTurn_draws : (passTurn s).draws = s.draws := rfl

@[simp] theorem popInput_epoch : (popInput s).epoch = s.epoch := rfl
@[simp] theorem popInput_busy : (popInput s).busy = s.busy := rfl
@[simp] theorem popInput_date : (popInput s).date = s.date := rfl
@[simp] theorem popInput_time : (popInput s).time = s.time := rfl
@[simp] theorem popInput_dayinfo : (popInput s).dayinfo = s.dayinfo := rfl
@[simp] theorem popInput_rdata : (popInput s).rdata = s.rdata := rfl
@[simp] theorem popInput_inputs : (popInput s).inputs = s.inputs.tail := rfl
@[simp] theorem popInput_turnsLeft : (popInput s).turnsLeft = s.turnsLeft := rfl
@[simp] theorem popInput_draws : (popInput s).draws = s.draws := rfl

@[simp] theorem resetBlock_epoch : (resetBlock s).epoch = 0x00000000#32 := rfl
@[simp] theorem resetBlock_busy : (resetBlock s).busy = false := rfl
@[simp] theorem resetBlock_date : (resetBlock s).date = 0x010107B2#32 := rfl
@[simp] theorem resetBlock_time : (resetBlock s).time = 0x00000000#32 := rfl
@[simp] theorem resetBlock_dayinfo : (resetBlock s).dayinfo = 0x00000004#32 := rfl
@[simp] theorem resetBlock_rdata : (resetBlock s).rdata = none := rfl
@[simp] theorem resetBlock_inputs : (resetBlock s).inputs = s.inputs := rfl
@[simp] theorem resetBlock_turnsLeft : (resetBlock s).turnsLeft = 0 := rfl
@[simp] theorem resetBlock_draws : (resetBlock s).draws = s.draws := rfl

@[simp] theorem writeResults_epoch (r : CalendarDateTime) : (writeResults r s).epoch = s.epoch := rfl
@[simp] theorem writeResults_busy (r : CalendarDateTime) : (writeResults r s).busy = s.busy := rfl
@[simp] theorem writeResults_date (r : CalendarDateTime) : (writeResults r s).date = encDate r := rfl
@[simp] theorem writeResults_time (r : CalendarDateTime) : (writeResults r s).time = encTime r := rfl
@[simp] theorem writeResults_dayinfo (r : CalendarDateTime) : (writeResults r s).dayinfo = encDayinfo r := rfl
@[simp] theorem writeResults_rdata (r : CalendarDateTime) : (writeResults r s).rdata = s.rdata := rfl
@[simp] theorem writeResults_inputs (r : CalendarDateTime) : (writeResults r s).inputs = s.inputs := rfl
@[simp] theorem writeResults_turnsLeft (r : CalendarDateTime) : (writeResults r s).turnsLeft = s.turnsLeft := rfl
@[simp] theorem writeResults_draws (r : CalendarDateTime) : (writeResults r s).draws = s.draws := rfl

@[simp] theorem complete_epoch : (complete s).epoch = s.epoch := rfl
@[simp] theorem complete_busy : (complete s).busy = false := rfl
@[simp] theorem complete_date : (complete s).date = encDate (convert s.epoch) := rfl
@[simp] theorem complete_time : (complete s).time = encTime (convert s.epoch) := rfl
@[simp] theorem complete_dayinfo : (complete s).dayinfo = encDayinfo (convert s.epoch) := rfl
@[simp] theorem complete_rdata : (complete s).rdata = s.rdata := rfl
@[simp] theorem complete_inputs : (complete s).inputs = s.inputs := rfl
@[simp] theorem complete_turnsLeft : (complete s).turnsLeft = s.turnsLeft := rfl
@[simp] theorem complete_draws : (complete s).draws = s.draws := rfl

@[simp] theorem placeAccess_epoch (t : Transaction) : (placeAccess t s).epoch = s.epoch := rfl
@[simp] theorem placeAccess_busy (t : Transaction) : (placeAccess t s).busy = s.busy := rfl
@[simp] theorem placeAccess_date (t : Transaction) : (placeAccess t s).date = s.date := rfl
@[simp] theorem placeAccess_time (t : Transaction) : (placeAccess t s).time = s.time := rfl
@[simp] theorem placeAccess_dayinfo (t : Transaction) : (placeAccess t s).dayinfo = s.dayinfo := rfl
@[simp] theorem placeAccess_rdata (t : Transaction) : (placeAccess t s).rdata = s.rdata := rfl
@[simp] theorem placeAccess_inputs (t : Transaction) : (placeAccess t s).inputs = .access t :: s.inputs := rfl
@[simp] theorem placeAccess_turnsLeft (t : Transaction) : (placeAccess t s).turnsLeft = s.turnsLeft + 1 := rfl
@[simp] theorem placeAccess_draws (t : Transaction) : (placeAccess t s).draws = s.draws := rfl

end Sys2Proof.Machine
end

