-- ==== Sys2Proof/Laws/Ops.lean ====
section
/-! SUPPORT. What each shared operation, each meaning and one step can do, said once. -/

namespace Sys2Proof.Machine

/-! ### Decoding -/

/-- A transaction that decodes has one of the six descriptors, and WR_EPOCH has the beat as its operand. -/
theorem decode_operation_cases {t : Transaction} {i : Instr} (h : decode t = .operation i) :
    (t.desc = 0x40#8 ∧ i = .rdEpoch) ∨ (t.desc = 0xC0#8 ∧ i = .wrEpoch t.wdata) ∨
    (t.desc = 0x44#8 ∧ i = .rdStatus) ∨ (t.desc = 0x48#8 ∧ i = .rdDate) ∨
    (t.desc = 0x4C#8 ∧ i = .rdTime) ∨ (t.desc = 0x50#8 ∧ i = .rdDayinfo) := by
  unfold decode at h
  split at h <;> simp_all [BitVec.toNat_eq]

/-- The fields of a descriptor byte are those it was made of. -/
theorem ofByte_toByte (d : Descriptor) : Descriptor.ofByte d.toByte = d := by
  obtain ⟨w, s, o⟩ := d
  revert o
  cases w <;> cases s <;> decide

/-- WR_EPOCH's transaction: descriptor 0xC0 and the operand as the beat. -/
theorem encode_wrEpoch (v : Word) : encode (.wrEpoch v) = { desc := 0xC0#8, wdata := v } := by
  have h : (descriptorOf (.wrEpoch v)).toByte = 0xC0#8 := by simp only [descriptorOf]; decide
  simp only [encode, h, beatOf]

/-- Decoding an operation's transaction gives it back. -/
theorem decode_encode (i : Instr) : decode (encode i) = .operation i := by
  cases i with
  | wrEpoch v => rw [encode_wrEpoch]; rfl
  | _ => rfl

/-- Unsupported names the transaction's own descriptor, and its beat on a write. -/
theorem raiseUnsupported_eq (t : Transaction) : raiseUnsupported t =
    .fault (.unsupported t.desc (if (Descriptor.ofByte t.desc).write then some t.wdata else none)) := rfl

/-! ### The reads and the write -/

/-- A result read returns its beat when BUSY = 0. -/
theorem readResult_idle {beat : Word} {s : State} (h : s.busy = false) :
    readResult beat s = .next { s with rdata := some beat } := by
  simp [readResult, respond, h]

/-- A result read returns the next free value when BUSY = 1. -/
theorem readResult_busy {beat : Word} {s : State} (h : s.busy = true) :
    readResult beat s = .next { s with rdata := some (Config.any32 s.draws), draws := s.draws + 1 } := by
  simp [readResult, respondAny, h]

/-- A result read changes the response and the count of draws only. -/
theorem readResult_frame {beat : Word} {s t : State} (h : readResult beat s = .next t) :
    ∃ v n, t = { s with rdata := some v, draws := n } := by
  unfold readResult at h
  split at h
  · exact ⟨_, _, (Host.Outcome.next.inj h).symm⟩
  · exact ⟨beat, s.draws, (Host.Outcome.next.inj h).symm⟩

/-- What any operation can do: WR_EPOCH starts a conversion, a read changes the response and the count of draws
only. -/
theorem exec_cases {i : Instr} {s t : State} (h : exec i s = .next t) :
    (∃ v, i = .wrEpoch v ∧ t = startConversion v s) ∨
    (i.isRead = true ∧ ∃ v n, t = { s with rdata := some v, draws := n }) := by
  cases i with
  | wrEpoch v => exact .inl ⟨v, rfl, by simpa [exec, execWrEpoch] using h.symm⟩
  | rdEpoch => exact .inr ⟨rfl, s.epoch, s.draws, by simpa [exec, execRdEpoch, respond] using h.symm⟩
  | rdStatus => exact .inr ⟨rfl, _, s.draws, by simpa [exec, execRdStatus, respond] using h.symm⟩
  | rdDate => exact .inr ⟨rfl, readResult_frame h⟩
  | rdTime => exact .inr ⟨rfl, readResult_frame h⟩
  | rdDayinfo => exact .inr ⟨rfl, readResult_frame h⟩

/-- A read leaves the registers, the inputs and the turns as they are. -/
theorem exec_read_frame {i : Instr} {s t : State} (hi : i.isRead = true) (h : exec i s = .next t) :
    t.registers = s.registers ∧ t.inputs = s.inputs ∧ t.turnsLeft = s.turnsLeft := by
  obtain ⟨v, rfl, _⟩ | ⟨_, v, n, rfl⟩ := exec_cases h
  · simp [Instr.isRead] at hi
  · exact ⟨rfl, rfl, rfl⟩

/-! ### One step -/

/-- Everything a step that answers a next state can be. -/
theorem step_cases {s t : State} (h : step s = .next t) :
    (engineMoves s = true ∧ t = complete s) ∨
    (engineMoves s = false ∧ s.inputs = [] ∧ t = passTurn s) ∨
    (engineMoves s = false ∧ ∃ tr rest i, s.inputs = .access tr :: rest ∧ decode tr = .operation i ∧
      exec i (passTurn (popInput s)) = .next t) ∨
    (engineMoves s = false ∧ (∃ rest, s.inputs = .reset :: rest ∨ s.inputs = .powerLoss :: rest) ∧
      t = resetBlock (popInput s)) ∨
    (engineMoves s = false ∧ (∃ rest, s.inputs = .clockGated :: rest) ∧ t = popInput s) := by
  unfold step at h
  split at h
  · rename_i hm
    exact .inl ⟨hm, by simpa using h.symm⟩
  · rename_i hm
    have hm : engineMoves s = false := by simpa using hm
    refine .inr ?_
    unfold outsideMoves at h
    split at h
    · rename_i hi
      exact .inl ⟨hm, hi, by simpa using h.symm⟩
    · rename_i i rest hi
      refine .inr ?_
      cases i with
      | access tr =>
        simp only [performInput, performAccess] at h
        split at h
        · rename_i j hj
          exact .inl ⟨hm, tr, rest, j, hi, hj, h⟩
        · simp [raiseUnsupported] at h
      | fetch _ => simp [performInput, raiseInstructionFetch] at h
      | reset => exact .inr (.inl ⟨hm, ⟨rest, .inl hi⟩, by simpa [performInput] using h.symm⟩)
      | powerLoss => exact .inr (.inl ⟨hm, ⟨rest, .inr hi⟩, by simpa [performInput] using h.symm⟩)
      | clockGated => exact .inr (.inr ⟨hm, ⟨rest, hi⟩, by simpa [performInput] using h.symm⟩)
      | breach _ => simp [performInput] at h

/-- The engine moves exactly in a busy state with no turns left. -/
theorem engineMoves_iff {s : State} : engineMoves s = true ↔ s.busy = true ∧ s.turnsLeft = 0 := by
  simp [engineMoves, completeEnabled]

/-! ### Runs -/

@[simp] theorem run_zero (s : State) : run 0 s = .next s := rfl

/-- `run` is the run of the host's interface. -/
theorem run_eq_core (k : Nat) (s : State) : run k s = Host.Core.run Sys2Proof.core k s := by
  induction k generalizing s with
  | zero => rfl
  | succ k ih =>
    refine Eq.trans ?_ (Host.Core.run.eq_def Sys2Proof.core (k + 1) s).symm
    simp only
    split
    · rename_i u hu
      exact (show run (k + 1) s = run k u by rw [run, show step s = .next u from hu]).trans (ih u)
    · rename_i f hf
      rw [run, show step s = .fault f from hf]; rfl
    · rename_i r hr
      rw [run, show step s = .refused r from hr]; rfl

/-- A run whose first step is a next state goes on from it. -/
theorem run_succ_next {k : Nat} {s t : State} (h : step s = .next t) : run (k + 1) s = run k t := by
  rw [run, h]

/-- A run of `j + k` steps is a run of `j` steps and then one of `k`. -/
theorem run_add {j : Nat} (k : Nat) {s t : State} (h : run j s = .next t) : run (j + k) s = run k t := by
  induction j generalizing s with
  | zero => simp at h; simp [h]
  | succ j ih =>
    rw [Nat.succ_add]
    rw [run] at h ⊢
    cases hs : step s with
    | next u => rw [hs] at h; exact ih h
    | fault f => rw [hs] at h; simp at h
    | refused r => rw [hs] at h; simp at h

end Sys2Proof.Machine
end

