-- ==== Sys2Proof/Laws/PerInstr.lean ====
section
/-! SUPPORT. Statements about every instruction as syntax, one lemma per constructor. -/

namespace Sys2Proof.Laws.Supported

/-- An operation's descriptor is a supported access as R28 describes it, and its transaction decodes to it (R44). -/
def Statement (i : Instr) : Prop :=
  (Descriptor.ofByte (encode i).desc).supported = true ∧ decode (encode i) = .operation i

theorem rdEpoch : Statement .rdEpoch := ⟨rfl, Machine.decode_encode _⟩

theorem wrEpoch (wdata : Word) : Statement (.wrEpoch wdata) :=
  by
  refine ⟨?_, Machine.decode_encode _⟩
  rw [Machine.encode_wrEpoch]
  exact (by decide : (Descriptor.ofByte 0xC0#8).supported = true)

theorem rdStatus : Statement .rdStatus := ⟨rfl, Machine.decode_encode _⟩

theorem rdDate : Statement .rdDate := ⟨rfl, Machine.decode_encode _⟩

theorem rdTime : Statement .rdTime := ⟨rfl, Machine.decode_encode _⟩

theorem rdDayinfo : Statement .rdDayinfo := ⟨rfl, Machine.decode_encode _⟩

end Sys2Proof.Laws.Supported
end

