-- ==== Sys2Proof/Tests/Slice0.lean ====
section
/-! SUPPORT. Tests on fixed values, their results taken from spec/95_test_vectors.md and the rules' examples, and a
witness of the hypotheses of every statement that has some. -/

namespace Sys2Proof.Tests

open Sys2Proof.Machine

/-- A state whose conversion of `v` has completed. -/
def idleAt (v : Word) : State := complete { State.reset with epoch := v, busy := true }

/-- A state that converts `v`, with `n` turns left and inputs to come. -/
def busyAt (v : Word) (n : Nat) (inputs : List Input) : State :=
  { State.reset with epoch := v, busy := true, turnsLeft := n, inputs := inputs }

theorem idleAt_resultsHold (v : Word) : (idleAt v).ResultsHold := ⟨fun _ => rfl, fun _ => rfl, fun _ => rfl⟩

/-! ### WellFormed: an ill-formed descriptor for each check (95_test_vectors.md 2.6) -/

/-- U8: a byte write to EPOCH. -/
theorem test_illformed_size : (Descriptor.ofByte 0x80#8).sizeIsWord = false := by decide

/-- U7: a misaligned word read. -/
theorem test_illformed_alignment : (Descriptor.ofByte 0x41#8).offsetIsAligned = false := by decide

/-- U5: a read of a reserved offset. -/
theorem test_illformed_reserved : (Descriptor.ofByte 0x54#8).offsetIsRegister = false := by decide

/-- U1: a write to read-only STATUS. -/
theorem test_illformed_readonly : (Descriptor.ofByte 0xC4#8).accessIsPermitted = false := by decide

theorem test_illformed_refused :
    [0x80#8, 0x41#8, 0x54#8, 0xC4#8].all (fun b => !(Descriptor.ofByte b).supported) = true := by decide

/-! ### Decoding: W, SIZE, OFFSET written out (R40, R44) -/

theorem test_decode_words :
    [0b0_10_00000, 0b1_10_00000, 0b0_10_00100, 0b0_10_01000, 0b0_10_01100, 0b0_10_10000].map (decodeTableWord 8) =
      [some .rdEpoch, some (.wrEpoch 0), some .rdStatus, some .rdDate, some .rdTime, some .rdDayinfo] := by decide

/-- The data beat 0x38BB_0C00 of O6 above the descriptor 0xC0. -/
theorem test_decode_beat : decodeTableWord 40 0x38BB0C00_C0 = some (.wrEpoch 951782400#32) := by decide

/-- U1, U5, U7, U8, U10. -/
theorem test_unsupported_classes :
    [0xC4#8, 0x54#8, 0x41#8, 0x80#8, 0x60#8].map (fun b => decode ⟨b, 0⟩) =
      [.unsupported .writeToReadOnly, .unsupported .reservedOffset, .unsupported .misalignedWord,
       .unsupported .subWord, .unsupported .reservedSize] := by decide

/-! ### CONVERT and the encoders (95_test_vectors.md 2.2) -/

/-- The three result values of an input. -/
def resultsOf (s : Nat) : Word × Word × Word :=
  let r := convert (BitVec.ofNat 32 s)
  (encDate r, encTime r, encDayinfo r)

/-- V7, V16, V20. -/
theorem test_convert_carries : [86399, 31536000, 94694399].map resultsOf =
    [(0x010107B2, 0x00173B3B, 0x00000004), (0x010107B3, 0x00000000, 0x00000005),
     (0x1F0C07B4, 0x00173B3B, 0x016D0100)] := by decide

/-- V25, V36, V40. -/
theorem test_convert_centuries : [951782400, 4107542400, 4294967295].map resultsOf =
    [(0x1D0207D0, 0x00000000, 0x003B0102), (0x01030834, 0x00000000, 0x003B0001),
     (0x0702083A, 0x00061C0F, 0x00250000)] := by decide

/-- 95_test_vectors.md 2.4: V27's round trip, 11017 days. -/
theorem test_toDays : toDays 2000 3 1 = 11017 := by decide

/-- V27. -/
theorem test_render : render (convert 951868800#32) = "2000-03-01 00:00:00 (Wednesday)" := by decide

/-! ### One step (95_test_vectors.md 2.5) -/

/-- O1 to O5. -/
theorem test_reads_after_reset :
    [0x40, 0x44, 0x48, 0x4C, 0x50].map (fun d => match step (State.reset.withFetchWord 8 d) with
      | .next t => t.rdata
      | .fault _ => none
      | .refused _ => none) =
    [some 0x00000000#32, some 0x00000000#32, some 0x010107B2#32, some 0x00000000#32, some 0x00000004#32] := by decide

/-- O6. -/
theorem test_write : ∃ t, step (State.reset.withFetchWord 40 0x38BB0C00_C0) = .next t ∧
    t.epoch = 951782400#32 ∧ t.busy = true ∧ t.rdata = none := ⟨_, rfl, rfl, rfl, rfl⟩

/-- O7, O8: while busy, STATUS reads 1 and EPOCH the value written. -/
theorem test_busy_reads :
    ([Instr.rdStatus, .rdEpoch].map fun i => match exec i (busyAt 951782400#32 3 []) with
      | .next t => t.rdata
      | .fault _ => none
      | .refused _ => none) = [some 1#32, some 951782400#32] := by decide

/-- O14: COMPLETE after a restart publishes the new input's results. -/
theorem test_complete : ∃ t, step (busyAt 0xFFFFFFFF#32 0 []) = .next t ∧ t.busy = false ∧ t.date = 0x0702083A#32 ∧
    t.time = 0x00061C0F#32 ∧ t.dayinfo = 0x00250000#32 := ⟨_, rfl, rfl, by decide, by decide, by decide⟩

/-- O18, O19. -/
theorem test_idle_reads :
    exec .rdTime (idleAt 86399#32) = .next { idleAt 86399#32 with rdata := some 0x00173B3B#32 } ∧
    exec .rdDayinfo (idleAt 94694399#32) = .next { idleAt 94694399#32 with rdata := some 0x016D0100#32 } := by
  constructor <;> rfl

/-- O20: the lanes of 0x0102_0304. -/
theorem test_lanes : lane 0x01020304#32 0 = 0x04#8 ∧ lane 0x01020304#32 3 = 0x01#8 := by decide

/-- U1 with a beat: the fault carries the descriptor and WDATA (R82). -/
theorem test_unsupported : step (State.reset.withFetchWord 40 0x00000005_C4) = .fault (.unsupported 0xC4#8 (some 5#32)) :=
  rfl

/-- U11. -/
theorem test_fetch : step { State.reset with inputs := [.fetch 0#5] } = .fault (.instructionFetch 0#5) := rfl

/-! ### The notation of host programs -/

/-- R48. -/
theorem test_conv_expands : HostProgram.conv (.lit 5#32) 1 2 =
    [.wrEpoch (.lit 5#32), .label 1, .rd .status 2, .ifGoto (.eq (.slice (.var 2) 0 0) (.lit 1#32)) 1] := rfl

/-- P4's slice d[23:16] of 0x0103_0834: MONTH 3. -/
theorem test_slice : (HostProgram.Expr.slice (.lit 0x01030834#32) 23 16).value [] = 3#32 := by decide

/-- P6's third access, a byte read of offset 0x08. -/
theorem test_program_fault : (HostProgram.System.start [.access ⟨0x08#8, 0#32⟩] State.reset).step =
    .fault (.unsupported 0x08#8 none) := rfl

/-- P1's first statement. -/
theorem test_program_read : ∃ y, (HostProgram.System.start [.rd .date 7] State.reset).step = .next y ∧
    y.next = 1 ∧ y.vars = [(7, 0x010107B2#32)] := ⟨_, rfl, rfl, rfl⟩

/-! ### Witnesses: values that meet the hypotheses of the statements -/

theorem witness_OperationsRoundTripThroughTheirBits : (Instr.wrEpoch 0xFFFFFFFF#32).wellFormed = true := rfl

theorem witness_DecodedTransactionIsTheEncoding :
    decode ⟨0xC0#8, 0xFFFFFFFF#32⟩ = .operation (.wrEpoch 0xFFFFFFFF#32) ∧ (0xC0#8 : Byte).getLsbD 7 = true := by
  exact ⟨rfl, by decide⟩

theorem witness_OpcodeMapHasExactlySixDescriptors :
    (0x51#8 : Byte) ∉ [0x40#8, 0xC0#8, 0x44#8, 0x48#8, 0x4C#8, 0x50#8] := by decide

theorem witness_UnsupportedDescriptorsFallInTheirClasses :
    decode ⟨0x54#8, 0#32⟩ = .unsupported .reservedOffset ∧ decode ⟨0x50#8, 0#32⟩ = .operation .rdDayinfo := by decide

theorem witness_WindowAddressesNameTransactions :
    31 < 32 ∧ (Config.gccBase + 32 < Config.gccBase ∨ Config.gccBase + 32 ≤ Config.gccBase + 32) :=
  ⟨by decide, .inr (Nat.le_refl _)⟩

theorem witness_RdEpochReturnsTheLatch : ∃ t, exec (.wrEpoch 0x00010001#32) State.reset = .next t := ⟨_, rfl⟩

theorem witness_WrEpochStartsAConversion :
    (∃ t, exec (.wrEpoch 951782400#32) State.reset = .next t) ∧
    (∃ t, exec (.wrEpoch 0xFFFFFFFF#32) (busyAt 5#32 1 []) = .next t) := ⟨⟨_, rfl⟩, ⟨_, rfl⟩⟩

theorem witness_WrEpochChangesNothingElse :
    (∃ t, exec (.wrEpoch 5#32) State.reset = .next t) ∧ Instr.rdTime ∈ [Instr.rdDate, Instr.rdTime, Instr.rdDayinfo] :=
  ⟨⟨_, rfl⟩, by decide⟩

theorem witness_RdStatusReturnsBusyZeroExtended : ∃ t, exec (.wrEpoch 5#32) State.reset = .next t := ⟨_, rfl⟩

theorem witness_RdDateReturnsTheDate :
    State.reset.busy = false ∧ (busyAt 5#32 0 []).busy = true ∧
    ((idleAt 0xFFFFFFFF#32).ResultsHold ∧ (idleAt 0xFFFFFFFF#32).busy = false ∧
      (idleAt 0xFFFFFFFF#32).epoch = 0xFFFFFFFF#32) := ⟨rfl, rfl, idleAt_resultsHold _, rfl, rfl⟩

theorem witness_RdTimeReturnsTheTime :
    (State.reset.busy = false ∧ State.reset.time.extractLsb' 24 8 = 0#8) ∧ (busyAt 5#32 0 []).busy = true ∧
    ((idleAt 86399#32).ResultsHold ∧ (idleAt 86399#32).busy = false ∧ (idleAt 86399#32).epoch = 86399#32) :=
  ⟨⟨rfl, by decide⟩, rfl, idleAt_resultsHold _, rfl, rfl⟩

theorem witness_RdDayinfoReturnsTheDayinfo :
    (State.reset.busy = false ∧ State.reset.dayinfo.extractLsb' 25 7 = 0#7 ∧
      State.reset.dayinfo.extractLsb' 9 7 = 0#7 ∧ State.reset.dayinfo.extractLsb' 3 5 = 0#5) ∧
    (busyAt 5#32 0 []).busy = true ∧
    ((idleAt 94694399#32).ResultsHold ∧ (idleAt 94694399#32).busy = false ∧
      (idleAt 94694399#32).epoch = 94694399#32) :=
  ⟨⟨rfl, by decide, by decide, by decide⟩, rfl, idleAt_resultsHold _, rfl, rfl⟩

theorem witness_ReadsHaveNoSideEffect : Instr.isRead .rdDate = true ∧ ∃ t, exec .rdDate State.reset = .next t :=
  ⟨rfl, _, rfl⟩

theorem witness_ReservedBitsReadAsZero : State.reset.busy = false := rfl

theorem witness_DayinfoReadsALegalWeekdayAndDay :
    (idleAt 94694399#32).ResultsHold ∧ (idleAt 94694399#32).busy = false ∧
    (dayinfoYday (idleAt 94694399#32).dayinfo).toNat = 365 := ⟨idleAt_resultsHold _, rfl, by decide⟩

theorem witness_CompletePublishesTheConversion :
    (busyAt 0xFFFFFFFF#32 0 []).busy = true ∧ (busyAt 0xFFFFFFFF#32 0 []).turnsLeft = 0 ∧
    (busyAt 0#32 0 []).busy = true ∧ (busyAt 0#32 0 []).turnsLeft = 0 ∧ (busyAt 0#32 0 []).epoch = 0#32 := by decide

theorem witness_EngineIsIdleUnlessBusy : State.reset.busy = false ∧ State.reset.inputs = [] := by decide

/-- A read of STATUS, as a transaction. -/
def pollStatus : Transaction := ⟨0x44#8, 0#32⟩

theorem witness_StepPerformsTheDecodedOperation :
    (engineMoves (busyAt 5#32 1 [.access pollStatus]) = false ∧
      (busyAt 5#32 1 [.access pollStatus]).inputs = .access pollStatus :: [] ∧
      decode pollStatus = .operation .rdStatus) ∧
    decodeTableWord 8 0x50 = some .rdDayinfo := by decide

theorem witness_UnsupportedAccessFaults :
    (engineMoves (busyAt 5#32 1 [.access ⟨0xC4#8, 7#32⟩]) = false ∧
      (busyAt 5#32 1 [.access ⟨0xC4#8, 7#32⟩]).inputs = .access ⟨0xC4#8, 7#32⟩ :: [] ∧
      (0xC4#8 : Byte) ∉ [0x40#8, 0xC0#8, 0x44#8, 0x48#8, 0x4C#8, 0x50#8]) ∧
    (engineMoves { State.reset with inputs := [.fetch 31#5] } = false ∧
      ({ State.reset with inputs := [.fetch 31#5] } : State).inputs = .fetch 31#5 :: []) := by decide

/-- One poll, and then U1 with a beat (a write to STATUS), or U11. -/
theorem witness_FaultIsNeverCleared :
    (∃ u, run 1 (busyAt 5#32 2 [.access pollStatus, .access ⟨0xC4#8, 7#32⟩]) = .next u ∧ engineMoves u = false ∧
      u.inputs = .access ⟨0xC4#8, 7#32⟩ :: [] ∧
      (0xC4#8 : Byte) ∉ [0x40#8, 0xC0#8, 0x44#8, 0x48#8, 0x4C#8, 0x50#8]) ∧
    (∃ u, run 1 (busyAt 5#32 2 [.access pollStatus, .fetch 31#5]) = .next u ∧ engineMoves u = false ∧
      u.inputs = .fetch 31#5 :: []) :=
  ⟨⟨_, rfl, rfl, rfl, by decide⟩, ⟨_, rfl, rfl, rfl⟩⟩

theorem witness_OnlyUnsupportedAccessesStopTheRun :
    step { State.reset with inputs := [.access ⟨0x00#8, 0#32⟩] } = .fault (.unsupported 0x00#8 none) ∧
    step { State.reset with inputs := [.breach .splitAccess] } = .refused (.hostBreaksObligation .splitAccess) :=
  ⟨rfl, rfl⟩

theorem witness_BreachOfTheWindowObligationsIsRefused :
    engineMoves { State.reset with inputs := [.breach .cachedRead] } = false ∧
    ({ State.reset with inputs := [.breach .cachedRead] } : State).inputs = .breach .cachedRead :: [] := by decide

/-- A step that is COMPLETE, and one that is a read. -/
theorem witness_InputsAreTakenInOrder :
    (∃ t, step (busyAt 5#32 0 [.access pollStatus]) = .next t ∧ engineMoves (busyAt 5#32 0 [.access pollStatus]) = true) ∧
    (∃ t, step (busyAt 5#32 1 [.access pollStatus]) = .next t ∧ engineMoves (busyAt 5#32 1 [.access pollStatus]) = false) :=
  ⟨⟨_, rfl, rfl⟩, ⟨_, rfl, rfl⟩⟩

theorem witness_EitherAgentMayMoveNext :
    (busyAt 5#32 0 [.access pollStatus]).busy = true ∧
    (busyAt 5#32 0 [.access pollStatus]).inputs = .access pollStatus :: [] ∧
    decode pollStatus = .operation .rdStatus := by decide

theorem witness_ResetGivesEveryRegisterItsResetValue :
    engineMoves (busyAt 5#32 1 [.reset]) = false ∧ (busyAt 5#32 1 [.reset]).inputs = .reset :: [] := by decide

theorem witness_PowerLossResetsAndGatedClockKeepsState :
    (engineMoves (busyAt 5#32 1 [.powerLoss]) = false ∧ (busyAt 5#32 1 [.powerLoss]).inputs = .powerLoss :: []) ∧
    (engineMoves (busyAt 5#32 1 [.clockGated]) = false ∧ (busyAt 5#32 1 [.clockGated]).inputs = .clockGated :: []) := by
  decide

/-- The write of 5 in an idle state: EPOCH changes and BUSY is set. -/
theorem witness_OnlyWrEpochAndResetChangeEpoch :
    ∃ t, step { State.reset with inputs := [.access ⟨0xC0#8, 5#32⟩] } = .next t ∧ t.epoch ≠ State.reset.epoch :=
  ⟨_, rfl, by decide⟩

theorem witness_OnlyWrEpochSetsAndCompleteClearsBusy :
    (∃ t, step { State.reset with inputs := [.access ⟨0xC0#8, 5#32⟩] } = .next t ∧ State.reset.busy = false ∧
      t.busy = true) ∧
    (∃ t, step (busyAt 5#32 0 []) = .next t ∧ (busyAt 5#32 0 []).busy = true ∧ t.busy = false) :=
  ⟨⟨_, rfl, rfl, rfl⟩, ⟨_, rfl, rfl, rfl⟩⟩

theorem witness_OnlyCompleteAndResetChangeResults :
    ∃ t, step (busyAt 5#32 0 []) = .next t ∧ t.time ≠ (busyAt 5#32 0 []).time := ⟨_, rfl, by decide⟩

theorem witness_StepKeepsResults :
    (busyAt 5#32 0 []).ResultsHold ∧ ∃ t, step (busyAt 5#32 0 []) = .next t :=
  ⟨⟨nofun, nofun, nofun⟩, _, rfl⟩

/-- A write, a poll while busy, COMPLETE and a poll that shows it. -/
theorem witness_execution : ∃ b0 b1,
    Allowed (.access (.wrEpoch 5#32)) Registers.reset none b0 ∧
    Execution b0 [(.access .rdStatus, some 1#32), (.complete, none), (.access .rdStatus, some 0#32)] b1 :=
  ⟨{ Registers.reset with epoch := 5#32, busy := true }, _, ⟨rfl, rfl, rfl⟩,
    .event _ _ _ _ _ _ ⟨rfl, rfl⟩ (.event _ _ _ _ _ _ ⟨rfl, rfl, rfl⟩ (.event _ _ _ _ _ _ ⟨rfl, rfl⟩ (.done _)))⟩

theorem witness_ResultsHoldInEveryInterleaving : ∃ trace b, trace ≠ [] ∧ Execution Registers.reset trace b :=
  ⟨_, _, by simp, .event (.access (.wrEpoch 5#32)) none _ { Registers.reset with epoch := 5#32, busy := true } _ []
    ⟨rfl, rfl, rfl⟩ (.done _)⟩

theorem witness_EveryStepIsAnAllowedEvent :
    (idleAt 5#32).ResultsHold ∧ ∃ t, step { idleAt 5#32 with inputs := [.access pollStatus] } = .next t :=
  ⟨idleAt_resultsHold _, _, rfl⟩

theorem witness_PollingShowsCompletion : ∃ b0 b1,
    Allowed (.access (.wrEpoch 5#32)) Registers.reset none b0 ∧
    Execution b0 [(.access .rdStatus, some 1#32), (.complete, none), (.access .rdStatus, some 0#32)] b1 ∧
    (∀ x ∈ [(Event.access .rdStatus, some 1#32), (.complete, none), (.access .rdStatus, some 0#32)],
      x.1.keepsEpoch = true) ∧
    Allowed (.access .rdDate) b1 (some (encDate (convert 5#32))) b1 :=
  ⟨{ Registers.reset with epoch := 5#32, busy := true }, _, ⟨rfl, rfl, rfl⟩,
    .event _ _ _ _ _ _ ⟨rfl, rfl⟩ (.event _ _ _ _ _ _ ⟨rfl, rfl, rfl⟩ (.event _ _ _ _ _ _ ⟨rfl, rfl⟩ (.done _))),
    by decide, ⟨_, rfl, fun _ => rfl⟩, rfl⟩

/-- The first clause of PollingShowsCompletion: a poll with no COMPLETE before it. -/
theorem witness_PollingShowsCompletion_busy : ∃ b0,
    Allowed (.access (.wrEpoch 5#32)) Registers.reset none b0 ∧
    Execution b0 [(.access .rdStatus, some 1#32)] b0 ∧ (∀ x ∈ [(Event.access .rdStatus, some 1#32)], x.1 ≠ .complete) :=
  ⟨{ Registers.reset with epoch := 5#32, busy := true }, ⟨rfl, rfl, rfl⟩, .event _ _ _ _ _ _ ⟨rfl, rfl⟩ (.done _),
    by decide⟩

/-- Two polls and a gated clock follow; the run goes through COMPLETE. -/
theorem witness_RunOfReadsPublishesOnlyItsInput :
    (busyAt 5#32 1 [.access pollStatus, .clockGated, .access pollStatus]).busy = true ∧
    (busyAt 5#32 1 [.access pollStatus, .clockGated, .access pollStatus]).onlyReadsFollow ∧
    ∃ t, run 2 (busyAt 5#32 1 [.access pollStatus, .clockGated, .access pollStatus]) = .next t :=
  ⟨rfl, fun i hi => by
    simp only [busyAt, List.mem_cons, List.not_mem_nil, or_false] at hi
    obtain rfl | rfl | rfl := hi <;> rfl, _, rfl⟩

theorem witness_ConversionCompletesOnceWritesStop :
    (busyAt 5#32 3 [.access pollStatus]).busy = true ∧ (busyAt 5#32 3 [.access pollStatus]).onlyReadsFollow :=
  ⟨rfl, fun i hi => by
    simp only [busyAt, List.mem_cons, List.not_mem_nil, or_false] at hi
    obtain rfl := hi
    rfl⟩

theorem witness_EndlessWritesArePromisedNothing : [0#32, 0xFFFFFFFF#32] ≠ ([] : List Word) := by decide

/-- The same EPOCH with different histories. -/
theorem witness_ResultsDependOnEpochAlone :
    (idleAt 5#32).ResultsHold ∧ ({ idleAt 5#32 with rdata := some 7#32, draws := 3 } : State).ResultsHold ∧
    (idleAt 5#32).busy = false ∧ ({ idleAt 5#32 with rdata := some 7#32, draws := 3 } : State).busy = false ∧
    (idleAt 5#32).epoch = ({ idleAt 5#32 with rdata := some 7#32, draws := 3 } : State).epoch ∧
    Instr.rdDate ∈ [Instr.rdDate, Instr.rdTime, Instr.rdDayinfo] :=
  ⟨idleAt_resultsHold _, idleAt_resultsHold _, rfl, rfl, rfl, by decide⟩

theorem witness_BusStatementsPerformTheirTransaction :
    engineMoves (HostProgram.System.start [.rd .date 7] State.reset).block = false ∧
    (HostProgram.System.start [.rd .date 7] State.reset).statement = .rd .date 7 ∧
    (HostProgram.System.start [.wrEpoch (.lit 5#32)] State.reset).statement = .wrEpoch (.lit 5#32) := by decide

theorem witness_LeapYearRuleIsGregorian : 1970 ≤ 2100 ∧ 2100 ≤ 2106 ∧ 2100 % 100 = 0 := by decide

theorem witness_TimeAndWeekdayFieldsFollowTheDivisions :
    (0#32 : Word).toNat / 86400 = (86399#32 : Word).toNat / 86400 := by decide

theorem witness_YearLoopResolvesTheYear : 49710 ≤ 49710 := by decide

theorem witness_MonthLoopResolvesTheMonth : 365 < ylen 1972 := by decide

theorem witness_ConvertRoundTrips : convert 5#32 = convert 5#32 := rfl

/-- The last second of the input range: 2106-02-07 06:28:15. -/
theorem witness_ConvertInvertsToEpoch :
    1970 ≤ 2106 ∧ 1 ≤ 2 ∧ 2 ≤ 12 ∧ 1 ≤ 7 ∧ 7 ≤ mlen 2 (isLeap 2106) ∧ 6 ≤ 23 ∧ 28 ≤ 59 ∧ 15 ≤ 59 ∧
    toEpoch 2106 2 7 6 28 15 < 2 ^ 32 := by
  simp [toEpoch, toDays, daysOfYears, daysOfMonths, ylen, isLeap, mlen, mlenTable]

/-- V39, the last input with a successor 604800 later. -/
theorem witness_WeekdayHasPeriodOfSevenDays : (4294362495#32 : Word).toNat + 604800 ≤ 2 ^ 32 - 1 := by decide

/-- V24, V26 and V29: the three ends of February. -/
theorem witness_FebruaryRollsOver :
    (convert 951782399#32).month = 2 ∧ (convert 951782399#32).hour = 23 ∧ (convert 951782399#32).minute = 59 ∧
    (convert 951782399#32).second = 59 ∧
    ((convert 951782399#32).day = 28 ∧ isLeap (convert 951782399#32).year = true) ∧
    (convert 951868799#32).day = 29 ∧
    ((convert 983404799#32).day = 28 ∧ isLeap (convert 983404799#32).year = false) := by decide

end Sys2Proof.Tests
end

/-! PROOFS. The state family: what an event of the block can do to its registers, the fields of the beats, and the
result invariant of R21. -/

namespace Sys2Proof.Machine

/-! ### The result reads of an idle block -/

/-- RD_DATE of an idle block returns the stored DATE, which has no reserved bits. -/
theorem exec_rdDate_idle {s : State} (h : s.busy = false) :
    exec .rdDate s = .next { s with rdata := some s.date } := by
  show readResult (dateBeat s.date) s = _
  rw [dateBeat_eq]
  exact readResult_idle h

/-- RD_TIME of an idle block returns the beat of the stored TIME. -/
theorem exec_rdTime_idle {s : State} (h : s.busy = false) :
    exec .rdTime s = .next { s with rdata := some (timeBeat s.time) } := readResult_idle h

/-- RD_DAYINFO of an idle block returns the beat of the stored DAYINFO. -/
theorem exec_rdDayinfo_idle {s : State} (h : s.busy = false) :
    exec .rdDayinfo s = .next { s with rdata := some (dayinfoBeat s.dayinfo) } := readResult_idle h

/-! ### Fields of the beats and of the encoders -/

theorem statusBeat_reserved (busy : Bool) : (statusBeat busy).extractLsb' 1 31 = 0#31 := by
  cases busy <;> decide

/-- A field of a concatenation, right above its low part. -/
theorem append_middle {a b c : Nat} (x : BitVec a) (y : BitVec b) (z : BitVec c) :
    (x ++ y ++ z).extractLsb' c b = y := by
  rw [append_high _ _ _ (Nat.le_refl c), Nat.sub_self, append_low]

theorem timeBeat_reserved (w : Word) : (timeBeat w).extractLsb' 24 8 = 0#8 := by
  unfold timeBeat
  rw [append_high (b := 8) _ _ _ (by decide), append_high (b := 8) _ _ _ (by decide),
    append_high (b := 8) _ _ _ (by decide)]
  rfl

/-- The places of DAYINFO's fields, the reserved bits 0: what a read of it and the encoder have in common. -/
def dayinfoLayout (yday : BitVec 9) (leap : Bool) (wday : BitVec 3) : Word :=
  0#7 ++ yday ++ 0#7 ++ BitVec.ofBool leap ++ 0#5 ++ wday

theorem dayinfoBeat_eq_layout (w : Word) :
    dayinfoBeat w = dayinfoLayout (dayinfoYday w) (dayinfoLeap w) (dayinfoWday w) := rfl

theorem encDayinfo_eq_layout (r : CalendarDateTime) :
    encDayinfo r = dayinfoLayout (BitVec.ofNat 9 r.yday) r.leap (BitVec.ofNat 3 r.weekday) := rfl

section Layout

variable (yday : BitVec 9) (leap : Bool) (wday : BitVec 3)

@[simp] theorem dayinfoWday_layout : dayinfoWday (dayinfoLayout yday leap wday) = wday := append_low _ _

/-- A field from bit 8 up is a field of the part above WDAY and its five reserved bits. -/
theorem dayinfoLayout_high {k : Nat} (i : Nat) (h : 8 ≤ i) :
    (dayinfoLayout yday leap wday).extractLsb' i k =
      (0#7 ++ yday ++ 0#7 ++ BitVec.ofBool leap).extractLsb' (i - 8) k := by
  unfold dayinfoLayout
  rw [append_high (b := 3) _ _ _ (by omega), append_high (b := 5) _ _ _ (by omega), Nat.sub_sub]

@[simp] theorem dayinfoLeap_layout : dayinfoLeap (dayinfoLayout yday leap wday) = leap := by
  have hfield := dayinfoLeap_field (dayinfoLayout yday leap wday)
  rw [dayinfoLayout_high _ _ _ 8 (by decide), append_low] at hfield
  simpa using congrArg (·.getLsbD 0) hfield.symm

@[simp] theorem dayinfoYday_layout : dayinfoYday (dayinfoLayout yday leap wday) = yday := by
  rw [dayinfoYday, dayinfoLayout_high _ _ _ 16 (by decide), append_high _ _ _ (by decide)]
  exact append_middle _ _ _

theorem dayinfoLayout_reserved :
    (dayinfoLayout yday leap wday).extractLsb' 25 7 = 0#7 ∧ (dayinfoLayout yday leap wday).extractLsb' 9 7 = 0#7 ∧
      (dayinfoLayout yday leap wday).extractLsb' 3 5 = 0#5 := by
  refine ⟨?_, ?_, append_middle _ _ _⟩
  · rw [dayinfoLayout_high _ _ _ 25 (by decide), append_high _ _ _ (by decide), append_high _ _ _ (by decide),
      append_high _ _ _ (by decide)]
    rfl
  · rw [dayinfoLayout_high _ _ _ 9 (by decide)]
    exact append_middle _ _ _

end Layout

/-- A read of an encoded DAYINFO returns it whole. -/
@[simp] theorem dayinfoBeat_encDayinfo (r : CalendarDateTime) : dayinfoBeat (encDayinfo r) = encDayinfo r := by
  rw [dayinfoBeat_eq_layout, encDayinfo_eq_layout, dayinfoYday_layout, dayinfoLeap_layout, dayinfoWday_layout]

/-! ### Ranges of CONVERT's weekday and day of the year -/

theorem convert_weekday_lt (s : Word) : (convert s).weekday < 7 := Nat.mod_lt _ (by decide)

/-- The day of the year lies in the year CONVERT returns: the year loop has tests enough to reach its exit (R55, R62). -/
theorem convert_yday_lt_ylen (s : Word) : (convert s).yday < ylen (convert s).year :=
  yearLoop_exits (by have := daysOf_le s; unfold yearTests; omega)

/-- The day of the year is below 366 in a leap year and below 365 in any other. -/
theorem convert_yday_lt (s : Word) : (convert s).yday < if (convert s).leap then 366 else 365 :=
  convert_yday_lt_ylen s

/-- A code below 7 is one of the seven named weekdays (R16). -/
theorem Weekday.ofCode_eq_some {c : BitVec 3} (h : c.toNat < 7) : ∃ w, Weekday.ofCode c = some w :=
  ⟨_, List.getElem?_eq_getElem h⟩

/-- WDAY of the encoded record is CONVERT's weekday, which fits in 3 bits. -/
theorem dayinfoWday_encDayinfo_convert (s : Word) :
    (dayinfoWday (encDayinfo (convert s))).toNat = (convert s).weekday := by
  have := convert_weekday_lt s
  rw [encDayinfo_eq_layout, dayinfoWday_layout, BitVec.toNat_ofNat, Nat.mod_eq_of_lt (by omega)]

/-- YDAY of the encoded record is CONVERT's day of the year, which fits in 9 bits. -/
theorem dayinfoYday_encDayinfo_convert (s : Word) :
    (dayinfoYday (encDayinfo (convert s))).toNat = (convert s).yday := by
  have := convert_yday_lt s
  rw [encDayinfo_eq_layout, dayinfoYday_layout, BitVec.toNat_ofNat, Nat.mod_eq_of_lt (by split at this <;> omega)]

/-! ### Register files in which the results hold -/

/-- The registers right after COMPLETE with `v` in EPOCH (R79). -/
def Registers.published (v : Word) : Registers :=
  { epoch := v, busy := false, date := encDate (convert v), time := encTime (convert v),
    dayinfo := encDayinfo (convert v) }

@[simp] theorem complete_registers (s : State) : (complete s).registers = .published s.epoch := rfl

theorem Registers.published_resultsHold (v : Word) : (Registers.published v).ResultsHold :=
  ⟨fun _ => rfl, fun _ => rfl, fun _ => rfl⟩

/-- The reset values are what COMPLETE publishes for EPOCH 0 (R13, R59). -/
theorem Registers.reset_eq_published : Registers.reset = .published 0#32 := by decide

theorem Registers.reset_resultsHold : Registers.reset.ResultsHold :=
  Registers.reset_eq_published ▸ published_resultsHold 0#32

/-- While BUSY = 1 the invariant promises nothing. -/
theorem Registers.resultsHold_of_busy {b : Registers} (h : b.busy = true) : b.ResultsHold :=
  ⟨by simp [h], by simp [h], by simp [h]⟩

/-- The invariant of a block that is not busy says that its registers are the published ones. -/
theorem Registers.ResultsHold.eq_published {b : Registers} (hb : b.ResultsHold) (h : b.busy = false) :
    b = .published b.epoch := by
  obtain ⟨hdate, htime, hdayinfo⟩ := hb
  obtain ⟨epoch, busy, date, time, dayinfo⟩ := b
  obtain rfl : busy = false := h
  rw [show date = _ from hdate rfl, show time = _ from htime rfl, show dayinfo = _ from hdayinfo rfl]
  rfl

/-! ### The event of a step -/

/-- When the engine does not move, a step is what the next input does. -/
theorem step_of_inputs_cons {s : State} {i : Input} {rest : List Input} (hm : engineMoves s = false)
    (hi : s.inputs = i :: rest) : step s = performInput i (popInput s) := by
  simp [step, hm, outsideMoves, hi]

theorem nextEvent_of_engineMoves {s : State} (hm : engineMoves s = true) : nextEvent s = some .complete :=
  if_pos hm

theorem nextEvent_of_inputs_nil {s : State} (hm : engineMoves s = false) (hi : s.inputs = []) :
    nextEvent s = some .nothing := by
  simp [nextEvent, hm, hi]

theorem nextEvent_of_inputs_cons {s : State} {i : Input} {rest : List Input} (hm : engineMoves s = false)
    (hi : s.inputs = i :: rest) : nextEvent s = eventOfInput i := by
  simp [nextEvent, hm, hi]

/-- The event of an access that decodes is its operation. -/
theorem eventOfInput_access {t : Transaction} {i : Instr} (h : decode t = .operation i) :
    eventOfInput (.access t) = some (.access i) := by
  simp [eventOfInput, h, Decoded.toOption]

/-- What a step's event does to the registers: COMPLETE publishes, WR_EPOCH loads EPOCH and sets BUSY, reset gives the
reset values, and a read, an idle turn or a gated clock changes nothing. -/
theorem step_registers_cases {s t : State} (h : step s = .next t) :
    (nextEvent s = some .complete ∧ t.registers = .published s.epoch) ∨
    (∃ v, nextEvent s = some (.access (.wrEpoch v)) ∧
      t.registers = { s.registers with epoch := v, busy := true }) ∨
    (nextEvent s = some .reset ∧ t.registers = Registers.reset) ∨
    ((nextEvent s = some .nothing ∨ ∃ i : Instr, i.isRead = true ∧ nextEvent s = some (.access i)) ∧
      t.registers = s.registers) := by
  obtain ⟨hm, rfl⟩ | ⟨hm, hi, rfl⟩ | ⟨hm, tr, rest, i, hi, hd, hx⟩ | ⟨hm, ⟨rest, hi⟩, rfl⟩ | ⟨hm, ⟨rest, hi⟩, rfl⟩ :=
    step_cases h
  · exact .inl ⟨nextEvent_of_engineMoves hm, rfl⟩
  · exact .inr (.inr (.inr ⟨.inl (nextEvent_of_inputs_nil hm hi), rfl⟩))
  · have he : nextEvent s = some (.access i) :=
      (nextEvent_of_inputs_cons hm hi).trans (eventOfInput_access hd)
    obtain ⟨v, rfl, rfl⟩ | ⟨hread, v, n, rfl⟩ := exec_cases hx
    · exact .inr (.inl ⟨v, he, rfl⟩)
    · exact .inr (.inr (.inr ⟨.inr ⟨i, hread, he⟩, rfl⟩))
  · have he : nextEvent s = some .reset := by
      obtain hi | hi := hi <;> exact nextEvent_of_inputs_cons hm hi
    exact .inr (.inr (.inl ⟨he, rfl⟩))
  · exact .inr (.inr (.inr ⟨.inl (nextEvent_of_inputs_cons hm hi), rfl⟩))

/-! ### The events of the ordering model -/

/-- What an event of the ordering model may do to the registers. -/
theorem allowed_cases {e : Event} {r : Option Word} {b b' : Registers} (h : Allowed e b r b') :
    (∃ v, e = .access (.wrEpoch v) ∧ b'.epoch = v ∧ b'.busy = true) ∨
    (e = .complete ∧ b.busy = true ∧ b' = .published b.epoch) ∨
    (e = .reset ∧ b' = Registers.reset) ∨
    ((e = .nothing ∨ ∃ i : Instr, i.isRead = true ∧ e = .access i) ∧ b' = b) := by
  cases e with
  | complete => exact .inr (.inl ⟨rfl, h.1, h.2.2⟩)
  | reset => exact .inr (.inr (.inl ⟨rfl, h.2⟩))
  | nothing => exact .inr (.inr (.inr ⟨.inl rfl, h.2⟩))
  | access i =>
    cases i with
    | wrEpoch v => exact .inl ⟨v, rfl, h.2⟩
    | _ => exact .inr (.inr (.inr ⟨.inr ⟨_, rfl, rfl⟩, h.2⟩))

/-- Every event that R34 allows keeps the result invariant. -/
theorem Allowed.keeps_resultsHold {e : Event} {r : Option Word} {b b' : Registers} (h : Allowed e b r b')
    (hb : b.ResultsHold) : b'.ResultsHold := by
  obtain ⟨v, _, _, hbusy⟩ | ⟨_, _, rfl⟩ | ⟨_, rfl⟩ | ⟨_, rfl⟩ := allowed_cases h
  · exact Registers.resultsHold_of_busy hbusy
  · exact Registers.published_resultsHold _
  · exact Registers.reset_resultsHold
  · exact hb

/-- A predicate that every allowed event keeps is kept by every execution. -/
theorem Execution.keeps {P : Registers → Prop}
    (hstep : ∀ {e : Event} {r : Option Word} {b b' : Registers}, Allowed e b r b' → P b → P b')
    {b b' : Registers} {trace : List (Event × Option Word)} (h : Execution b trace b') (hb : P b) : P b' := by
  induction h with
  | done _ => exact hb
  | event _ _ _ _ _ _ ha _ ih => exact ih (hstep ha hb)

/-! ### The obligations of the state family -/

/-- Settles O34: by the four things a step can do to the registers. -/
theorem stepKeepsResults : Obligations.StepKeepsResults := by
  intro s t hs h
  unfold State.ResultsHold
  obtain ⟨_, ht⟩ | ⟨v, _, ht⟩ | ⟨_, ht⟩ | ⟨_, ht⟩ := step_registers_cases h <;> rw [ht]
  · exact Registers.published_resultsHold _
  · exact Registers.resultsHold_of_busy rfl
  · exact Registers.reset_resultsHold
  · exact hs

/-- Settles O35: the invariant holds at reset and every allowed event keeps it. -/
theorem resultsHoldInEveryInterleaving : Obligations.ResultsHoldInEveryInterleaving :=
  fun _ _ h => h.keeps Allowed.keeps_resultsHold Registers.reset_resultsHold

/-- Settles O17: each beat has zeros in the reserved places, whatever is stored. -/
theorem reservedBitsReadAsZero : Obligations.ReservedBitsReadAsZero :=
  ⟨fun s => ⟨_, rfl, statusBeat_reserved s.busy⟩,
   fun s h => ⟨⟨_, exec_rdTime_idle h, timeBeat_reserved s.time⟩, _, exec_rdDayinfo_idle h,
    dayinfoLayout_reserved _ _ _⟩⟩

/-- Settles O18: the beat's fields are those of CONVERT(EPOCH), whose ranges fit the fields. -/
theorem dayinfoReadsALegalWeekdayAndDay : Obligations.DayinfoReadsALegalWeekdayAndDay := by
  intro s hs hidle
  have hbeat : dayinfoBeat s.dayinfo = encDayinfo (convert s.epoch) := by
    rw [show s.dayinfo = encDayinfo (convert s.epoch) from hs.dayinfo hidle, dayinfoBeat_encDayinfo]
  have hweekday := convert_weekday_lt s.epoch
  have hyday := convert_yday_lt s.epoch
  rw [← dayinfoWday_encDayinfo_convert] at hweekday
  rw [← dayinfoYday_encDayinfo_convert] at hyday
  refine ⟨_, hbeat ▸ exec_rdDayinfo_idle hidle, Weekday.ofCode_eq_some hweekday, ?_, ?_, fun h365 => ?_⟩
  · intro h7
    rw [h7] at hweekday
    exact absurd hweekday (by decide)
  · split at hyday <;> omega
  · rw [encDayinfo_eq_layout, dayinfoLeap_layout]
    split at hyday
    next hleap => exact hleap
    next => omega

/-- Settles O30: COMPLETE and the reads leave EPOCH as it is. -/
theorem onlyWrEpochAndResetChangeEpoch : Obligations.OnlyWrEpochAndResetChangeEpoch := by
  intro s t h hne
  obtain ⟨_, ht⟩ | ⟨v, he, ht⟩ | ⟨he, _⟩ | ⟨_, ht⟩ := step_registers_cases h
  · exact absurd (congrArg Registers.epoch ht) hne
  · have hv : t.epoch = v := congrArg Registers.epoch ht
    exact .inl (hv ▸ he)
  · exact .inr he
  · exact absurd (congrArg Registers.epoch ht) hne

/-- Settles O31: WR_EPOCH leaves BUSY = 1, COMPLETE and reset leave BUSY = 0, anything else leaves it as it is. -/
theorem onlyWrEpochSetsAndCompleteClearsBusy : Obligations.OnlyWrEpochSetsAndCompleteClearsBusy := by
  intro s t h
  obtain ⟨he, ht⟩ | ⟨v, he, ht⟩ | ⟨he, ht⟩ | ⟨_, ht⟩ := step_registers_cases h
  · have hbusy : t.busy = false := congrArg Registers.busy ht
    exact ⟨fun _ hset => by simp [hbusy] at hset, fun _ _ => .inl he⟩
  · have hbusy : t.busy = true := congrArg Registers.busy ht
    have hv : t.epoch = v := congrArg Registers.epoch ht
    exact ⟨fun _ _ => hv ▸ he, fun _ hclear => by simp [hbusy] at hclear⟩
  · have hbusy : t.busy = false := congrArg Registers.busy ht
    exact ⟨fun _ hset => by simp [hbusy] at hset, fun _ _ => .inr he⟩
  · have hbusy : t.busy = s.busy := congrArg Registers.busy ht
    exact ⟨fun hs hset => by simp [hbusy, hs] at hset, fun hs hclear => by simp [hbusy, hs] at hclear⟩

/-- Settles O32: WR_EPOCH and the reads leave the three stored results as they are. -/
theorem onlyCompleteAndResetChangeResults : Obligations.OnlyCompleteAndResetChangeResults := by
  intro s t h hne
  have kept (hdate : t.date = s.date) (htime : t.time = s.time) (hdayinfo : t.dayinfo = s.dayinfo) : False := by
    simp [hdate, htime, hdayinfo] at hne
  obtain ⟨he, _⟩ | ⟨v, _, ht⟩ | ⟨he, _⟩ | ⟨_, ht⟩ := step_registers_cases h
  · exact .inl he
  · exact (kept (congrArg Registers.date ht) (congrArg Registers.time ht) (congrArg Registers.dayinfo ht)).elim
  · exact .inr he
  · exact (kept (congrArg Registers.date ht) (congrArg Registers.time ht) (congrArg Registers.dayinfo ht)).elim

/-- Settles O41: by R21 the registers of each state are those published for the one EPOCH. -/
theorem resultsDependOnEpochAlone : Obligations.ResultsDependOnEpochAlone := by
  intro s t hs ht hsidle htidle hepoch i hi
  have hregs : s.registers = t.registers := by
    rw [hs.eq_published hsidle, ht.eq_published htidle, registers_epoch, registers_epoch, hepoch]
  simp only [List.mem_cons, List.not_mem_nil, or_false] at hi
  obtain rfl | rfl | rfl := hi
  · have hdate : s.date = t.date := congrArg Registers.date hregs
    exact ⟨_, _, exec_rdDate_idle hsidle, exec_rdDate_idle htidle, by simp only [hdate]⟩
  · have htime : s.time = t.time := congrArg Registers.time hregs
    exact ⟨_, _, exec_rdTime_idle hsidle, exec_rdTime_idle htidle, by simp only [htime]⟩
  · have hdayinfo : s.dayinfo = t.dayinfo := congrArg Registers.dayinfo hregs
    exact ⟨_, _, exec_rdDayinfo_idle hsidle, exec_rdDayinfo_idle htidle, by simp only [hdayinfo]⟩

/-- Settles O28: a reset at the head of the inputs is the next step, and its values are those published for EPOCH 0. -/
theorem resetGivesEveryRegisterItsResetValue : Obligations.ResetGivesEveryRegisterItsResetValue := by
  refine ⟨rfl, fun s rest hm hi => ⟨resetBlock (popInput s), step_of_inputs_cons hm hi, rfl, ?_⟩,
    congrArg Registers.date Registers.reset_eq_published, congrArg Registers.time Registers.reset_eq_published,
    congrArg Registers.dayinfo Registers.reset_eq_published⟩
  simp [hi]

/-- Settles O33: the reset values are those published for EPOCH 0. -/
theorem resultsHoldAtReset : Obligations.ResultsHoldAtReset := Registers.reset_resultsHold

end Sys2Proof.Machine

/-! PROOFS. The memory family: which host accesses name transactions and operations, what stops a step or a run, and the
order of the host's accesses and COMPLETE. -/

namespace Sys2Proof.Machine

/-! ### Descriptors, lanes and window addresses -/

/-- The six descriptors of R44. -/
def operationDescriptors : List Byte := [0x40#8, 0xC0#8, 0x44#8, 0x48#8, 0x4C#8, 0x50#8]

/-- A transaction is an operation exactly when its descriptor is one of the six; the beat plays no part. -/
theorem decode_operation_iff_mem {t : Transaction} :
    (∃ i, decode t = .operation i) ↔ t.desc ∈ operationDescriptors := by
  constructor
  · rintro ⟨i, hi⟩
    obtain ⟨h, _⟩ | ⟨h, _⟩ | ⟨h, _⟩ | ⟨h, _⟩ | ⟨h, _⟩ | ⟨h, _⟩ := decode_operation_cases hi <;>
      simp [operationDescriptors, h]
  · obtain ⟨desc, wdata⟩ := t
    intro h
    simp only [operationDescriptors, List.mem_cons, List.not_mem_nil, or_false] at h
    obtain rfl | rfl | rfl | rfl | rfl | rfl := h <;> exact ⟨_, rfl⟩

/-- A transaction with any other descriptor is unsupported. -/
theorem decode_unsupported_of_not_mem {t : Transaction} (h : t.desc ∉ operationDescriptors) :
    ∃ c, decode t = .unsupported c := by
  cases hd : decode t with
  | operation i => exact absurd (decode_operation_iff_mem.mp ⟨i, hd⟩) h
  | unsupported c => exact ⟨c, rfl⟩

/-- R28's four checks pass the six descriptors of the 256 and no others. -/
theorem supported_iff_mem : ∀ d : Byte, (Descriptor.ofByte d).supported = true ↔ d ∈ operationDescriptors := by
  decide

/-- An address `GCC_BASE + off` in the window has the offset `off` (R26). -/
theorem windowOffset_gccBase_add {off : Nat} (h : off < 32) :
    windowOffset (Config.gccBase + off) = some (BitVec.ofNat 5 off) := by
  rw [windowOffset, if_pos (by omega), Nat.add_sub_cancel_left]

theorem read_gccBase_add (size : Size) {off : Nat} (h : off < 32) :
    Transaction.read size (Config.gccBase + off) =
      some ⟨Descriptor.toByte ⟨false, size, BitVec.ofNat 5 off⟩, 0#32⟩ := by
  rw [Transaction.read, windowOffset_gccBase_add h, Option.map_some]

theorem write_gccBase_add (size : Size) (v : Word) {off : Nat} (h : off < 32) :
    Transaction.write size (Config.gccBase + off) v =
      some ⟨Descriptor.toByte ⟨true, size, BitVec.ofNat 5 off⟩, v⟩ := by
  rw [Transaction.write, windowOffset_gccBase_add h, Option.map_some]

/-- An address outside the window has no offset (R40). -/
theorem windowOffset_outside {addr : Nat} (h : addr < Config.gccBase ∨ Config.gccBase + 32 ≤ addr) :
    windowOffset addr = none :=
  if_neg (by omega)

/-! ### The ordering model -/

/-- A read of an encoded TIME returns it whole. -/
@[simp] theorem timeBeat_encTime (r : CalendarDateTime) : timeBeat (encTime r) = encTime r := by
  have hsecond : timeSecond (encTime r) = BitVec.ofNat 8 r.second := append_low _ _
  have hminute : timeMinute (encTime r) = BitVec.ofNat 8 r.minute := append_middle _ _ _
  have hhour : timeHour (encTime r) = BitVec.ofNat 8 r.hour :=
    (append_high (b := 8) _ _ 16 (by decide)).trans (append_middle _ _ _)
  rw [timeBeat, hsecond, hminute, hhour]
  rfl

/-- A result read may return the stored result, when its beat is the stored result of an idle block. -/
theorem readResult_mayReturn {beat result : Word} {s t : State} (hbeat : s.busy = false → beat = result)
    (h : readResult beat s = .next t) : MayReturn s.busy result t.rdata ∧ t.registers = s.registers := by
  cases hbusy : s.busy with
  | false =>
    obtain rfl := Host.Outcome.next.inj ((readResult_idle hbusy).symm.trans h)
    exact ⟨⟨beat, rfl, fun _ => hbeat hbusy⟩, rfl⟩
  | true =>
    obtain rfl := Host.Outcome.next.inj ((readResult_busy hbusy).symm.trans h)
    exact ⟨⟨_, rfl, nofun⟩, rfl⟩

/-- Where the results hold, an operation does what the ordering model allows it, with the response it allows. -/
theorem exec_allowed {i : Instr} {s t : State} (hs : s.ResultsHold) (h : exec i s = .next t) :
    Allowed (.access i) s.registers t.rdata t.registers := by
  cases i with
  | rdEpoch => obtain rfl := Host.Outcome.next.inj h; exact ⟨rfl, rfl⟩
  | wrEpoch v => obtain rfl := Host.Outcome.next.inj h; exact ⟨rfl, rfl, rfl⟩
  | rdStatus => obtain rfl := Host.Outcome.next.inj h; exact ⟨rfl, rfl⟩
  | rdDate => exact readResult_mayReturn (fun _ => dateBeat_eq s.date) h
  | rdTime =>
    refine readResult_mayReturn (fun hidle => ?_) h
    have htime : s.time = encTime (convert s.epoch) := hs.time hidle
    rw [registers_time, htime, timeBeat_encTime]
  | rdDayinfo =>
    refine readResult_mayReturn (fun hidle => ?_) h
    have hdayinfo : s.dayinfo = encDayinfo (convert s.epoch) := hs.dayinfo hidle
    rw [registers_dayinfo, hdayinfo, dayinfoBeat_encDayinfo]

/-- A result read of an idle block may return the stored result only. -/
theorem MayReturn.eq_of_idle {busy : Bool} {result : Word} {r : Option Word} (h : MayReturn busy result r)
    (hidle : busy = false) : r = some result := by
  obtain ⟨v, rfl, hv⟩ := h
  rw [hv hidle]

/-- When BUSY = 0 a read of a result returns the register (R76 to R78). -/
theorem allowed_result_of_idle {b : Registers} (hidle : b.busy = false) (r : Option Word) (b' : Registers) :
    (Allowed (.access .rdDate) b r b' → r = some b.date) ∧
    (Allowed (.access .rdTime) b r b' → r = some b.time) ∧
    (Allowed (.access .rdDayinfo) b r b' → r = some b.dayinfo) :=
  ⟨fun h => h.1.eq_of_idle hidle, fun h => h.1.eq_of_idle hidle, fun h => h.1.eq_of_idle hidle⟩

/-- An event that neither writes EPOCH nor resets is COMPLETE, which publishes, or leaves the registers. -/
theorem Allowed.of_keepsEpoch {e : Event} {r : Option Word} {b b' : Registers} (h : Allowed e b r b')
    (he : e.keepsEpoch = true) : (e = .complete ∧ b' = .published b.epoch) ∨ (e ≠ .complete ∧ b' = b) := by
  obtain ⟨v, rfl, _⟩ | ⟨rfl, _, hb⟩ | ⟨rfl, _⟩ | ⟨rfl | ⟨i, _, rfl⟩, hb⟩ := allowed_cases h
  · exact absurd he (by simp [Event.keepsEpoch])
  · exact .inl ⟨rfl, hb⟩
  · exact absurd he (by simp [Event.keepsEpoch])
  · exact .inr ⟨nofun, hb⟩
  · exact .inr ⟨nofun, hb⟩

/-- In an execution with no write of EPOCH and no reset, with no COMPLETE either, every event happens in the registers
it began with; with a COMPLETE, it ends in the results of their EPOCH. -/
theorem Execution.of_keepsEpoch {b b' : Registers} {trace : List (Event × Option Word)} (h : Execution b trace b')
    (hkeeps : ∀ x ∈ trace, x.1.keepsEpoch = true) :
    ((∀ x ∈ trace, x.1 ≠ .complete ∧ Allowed x.1 b x.2 b) ∧ b' = b) ∨
    ((∃ r, (.complete, r) ∈ trace) ∧ b' = .published b.epoch) := by
  induction h with
  | done b => exact .inl ⟨nofun, rfl⟩
  | event e r b bm b' rest ha _ ih =>
    obtain ⟨hkeep, hrest⟩ := List.forall_mem_cons.mp hkeeps
    obtain ⟨rfl, rfl⟩ | ⟨hne, rfl⟩ := ha.of_keepsEpoch hkeep
    · refine .inr ⟨⟨r, List.mem_cons_self⟩, ?_⟩
      obtain ⟨_, hb⟩ | ⟨_, hb⟩ := ih hrest <;> exact hb
    · obtain ⟨hall, hb⟩ | ⟨⟨r', hr'⟩, hb⟩ := ih hrest
      · exact .inl ⟨List.forall_mem_cons.mpr ⟨⟨hne, ha⟩, hall⟩, hb⟩
      · exact .inr ⟨⟨r', List.mem_cons_of_mem _ hr'⟩, hb⟩

/-! ### Steps and runs -/

theorem readResult_completes (beat : Word) (s : State) : ∃ t, readResult beat s = .next t := by
  cases h : s.busy with
  | false => exact ⟨_, readResult_idle h⟩
  | true => exact ⟨_, readResult_busy h⟩

/-- An operation completes in every state (R82). -/
theorem exec_completes (i : Instr) (s : State) : ∃ t, exec i s = .next t := by
  cases i with
  | rdEpoch | wrEpoch | rdStatus => exact ⟨_, rfl⟩
  | rdDate | rdTime | rdDayinfo => exact readResult_completes _ s

/-- No operation touches the inputs still to come. -/
theorem exec_inputs {i : Instr} {s t : State} (h : exec i s = .next t) : t.inputs = s.inputs := by
  obtain ⟨v, _, rfl⟩ | ⟨_, v, n, rfl⟩ := exec_cases h <;> rfl

theorem performAccess_operation {t : Transaction} {i : Instr} (h : decode t = .operation i) (s : State) :
    performAccess t s = exec i s := by
  simp only [performAccess, h]

theorem performAccess_unsupported {t : Transaction} {c : UnsupportedClass} (h : decode t = .unsupported c) (s : State) :
    performAccess t s = raiseUnsupported t := by
  simp only [performAccess, h]

/-- An access completes, or it decodes to no operation and raises Unsupported. -/
theorem performAccess_cases (t : Transaction) (s : State) :
    (∃ u, performAccess t s = .next u) ∨
    ((decode t).toOption = none ∧ performAccess t s = raiseUnsupported t) := by
  cases hd : decode t with
  | operation i => exact .inl (performAccess_operation hd s ▸ exec_completes i s)
  | unsupported c => exact .inr ⟨rfl, performAccess_unsupported hd s⟩

/-- Only an access that decodes to no operation, or an instruction fetch, faults. -/
theorem performInput_fault {i : Input} {s : State} {f : Fault} (h : performInput i s = .fault f) :
    (∃ t, i = .access t ∧ (decode t).toOption = none) ∨ ∃ off, i = .fetch off := by
  cases i with
  | access t =>
    obtain ⟨u, hu⟩ | ⟨hd, _⟩ := performAccess_cases t (passTurn s)
    · cases hu.symm.trans h
    · exact .inl ⟨t, rfl, hd⟩
  | fetch off => exact .inr ⟨off, rfl⟩
  | reset | powerLoss | clockGated | breach => cases h

/-- Only a breach of the window obligations is refused, by its name. -/
theorem performInput_refused {i : Input} {s : State} {r : Refusal} (h : performInput i s = .refused r) :
    ∃ b, i = .breach b ∧ r = .hostBreaksObligation b := by
  cases i with
  | access t => obtain ⟨u, hu⟩ | ⟨_, hu⟩ := performAccess_cases t (passTurn s) <;> cases hu.symm.trans h
  | breach b => exact ⟨b, rfl, (Host.Outcome.refused.inj h).symm⟩
  | fetch | reset | powerLoss | clockGated => cases h

/-- A step that answers no next state stops at its first input. -/
theorem step_stops {s : State} (h : ∀ t, step s ≠ .next t) :
    ∃ i rest, s.inputs = i :: rest ∧ step s = performInput i (popInput s) := by
  cases hm : engineMoves s with
  | true => exact absurd (if_pos hm) (h (complete s))
  | false =>
    cases hi : s.inputs with
    | nil => exact absurd (by simp [step, hm, outsideMoves, hi]) (h (passTurn s))
    | cons i rest => exact ⟨i, rest, rfl, step_of_inputs_cons hm hi⟩

/-- COMPLETE leaves the inputs, and any other step takes the first. -/
theorem step_inputs {s t : State} (h : step s = .next t) :
    t.inputs = if engineMoves s then s.inputs else s.inputs.tail := by
  obtain ⟨hm, rfl⟩ | ⟨hm, hi, rfl⟩ | ⟨hm, tr, rest, i, hi, hd, hx⟩ | ⟨hm, _, rfl⟩ | ⟨hm, _, rfl⟩ := step_cases h
  · simp [hm]
  · simp [hm, hi]
  · simp [hm, exec_inputs hx]
  · simp [hm]
  · simp [hm]

/-- A run of one step more begins with a step. -/
theorem run_succ_inv {k : Nat} {s t : State} (h : run (k + 1) s = .next t) :
    ∃ u, step s = .next u ∧ run k u = .next t := by
  rw [run] at h
  split at h
  next u hu => exact ⟨u, hu, h⟩
  next => cases h
  next => cases h

/-- A run that comes to a state whose step faults is that fault at every greater length. -/
theorem run_fault {k : Nat} (j : Nat) {s u : State} {f : Fault} (h : run k s = .next u) (hf : step u = .fault f) :
    run (k + j + 1) s = .fault f := by
  rw [Nat.add_assoc, run_add _ h, run, hf]

/-! ### Runs of reads and gated clocks -/

/-- An input that leaves the conversion alone neither writes EPOCH nor resets. -/
theorem eventOfInput_keepsEpoch {i : Input} {e : Event} (hi : i.leavesConversion = true)
    (he : eventOfInput i = some e) : e.keepsEpoch = true := by
  cases i with
  | access t =>
    cases hd : decode t with
    | unsupported c => simp [Input.leavesConversion, hd] at hi
    | operation i =>
      obtain rfl := Option.some.inj ((eventOfInput_access hd).symm.trans he)
      simp only [Input.leavesConversion, hd] at hi
      cases i with
      | wrEpoch v => cases hi
      | _ => rfl
  | clockGated => obtain rfl := Option.some.inj he; rfl
  | fetch | reset | powerLoss | breach => cases hi

/-- Where only reads and gated clocks follow, the next event neither writes EPOCH nor resets. -/
theorem State.onlyReadsFollow.nextEvent_keepsEpoch {s : State} {e : Event} (hs : s.onlyReadsFollow)
    (he : nextEvent s = some e) : e.keepsEpoch = true := by
  cases hm : engineMoves s with
  | true => obtain rfl := Option.some.inj ((nextEvent_of_engineMoves hm).symm.trans he); rfl
  | false =>
    cases hi : s.inputs with
    | nil => obtain rfl := Option.some.inj ((nextEvent_of_inputs_nil hm hi).symm.trans he); rfl
    | cons i rest =>
      exact eventOfInput_keepsEpoch (hs i (by simp [hi])) ((nextEvent_of_inputs_cons hm hi).symm.trans he)

/-- A step leaves only reads and gated clocks to follow where no others were. -/
theorem State.onlyReadsFollow.of_step {s t : State} (hs : s.onlyReadsFollow) (h : step s = .next t) :
    t.onlyReadsFollow := by
  intro i hi
  rw [step_inputs h] at hi
  split at hi
  · exact hs i hi
  · exact hs i (List.mem_of_mem_tail hi)

/-- Where only reads and gated clocks follow, a step leaves the registers or publishes the results of EPOCH. -/
theorem State.onlyReadsFollow.step_registers {s t : State} (hs : s.onlyReadsFollow) (h : step s = .next t) :
    t.registers = s.registers ∨ t.registers = .published s.epoch := by
  obtain ⟨_, ht⟩ | ⟨v, he, _⟩ | ⟨he, _⟩ | ⟨_, ht⟩ := step_registers_cases h
  · exact .inr ht
  · cases hs.nextEvent_keepsEpoch he
  · cases hs.nextEvent_keepsEpoch he
  · exact .inl ht

/-- A run of reads and gated clocks leaves the registers or ends in the results of EPOCH. -/
theorem State.onlyReadsFollow.run_registers {k : Nat} {s t : State} (hs : s.onlyReadsFollow)
    (h : run k s = .next t) : t.registers = s.registers ∨ t.registers = .published s.epoch := by
  induction k generalizing s with
  | zero => obtain rfl := Host.Outcome.next.inj h; exact .inl rfl
  | succ k ih =>
    obtain ⟨u, hu, hrun⟩ := run_succ_inv h
    have hsu := hs.step_registers hu
    have hepoch : u.epoch = s.epoch := by
      obtain hr | hr := hsu <;> exact congrArg Registers.epoch hr
    obtain ht | ht := ih (hs.of_step hu) hrun
    · exact ht ▸ hsu
    · exact .inr (hepoch ▸ ht)

/-! ### The obligations of the memory family -/

/-- Settles O36: by everything a step can be; an operation is allowed where the results hold. -/
theorem everyStepIsAnAllowedEvent : Obligations.EveryStepIsAnAllowedEvent := by
  intro s t hs h
  obtain ⟨hm, rfl⟩ | ⟨hm, hi, rfl⟩ | ⟨hm, tr, rest, i, hi, hd, hx⟩ | ⟨hm, ⟨rest, hi⟩, rfl⟩ | ⟨hm, ⟨rest, hi⟩, rfl⟩ :=
    step_cases h
  · exact ⟨_, nextEvent_of_engineMoves hm, (engineMoves_iff.mp hm).1, rfl, rfl⟩
  · exact ⟨_, nextEvent_of_inputs_nil hm hi, rfl, rfl⟩
  · exact ⟨_, (nextEvent_of_inputs_cons hm hi).trans (eventOfInput_access hd),
      exec_allowed (s := passTurn (popInput s)) hs hx⟩
  · have he : nextEvent s = some .reset := by
      obtain hi | hi := hi <;> exact nextEvent_of_inputs_cons hm hi
    exact ⟨_, he, rfl, rfl⟩
  · exact ⟨_, nextEvent_of_inputs_cons hm hi, rfl, rfl⟩

/-- Settles O37: with no COMPLETE every poll happens in the busy registers after the write, so a poll that returned 0
comes after COMPLETE, and the results of `v` stand at the end. -/
theorem pollingShowsCompletion : Obligations.PollingShowsCompletion := by
  intro v b b0 b1 trace hwrite hex hkeeps
  obtain ⟨_, rfl, hbusy⟩ := hwrite
  obtain ⟨hall, _⟩ | ⟨⟨r, hcomplete⟩, rfl⟩ := hex.of_keepsEpoch hkeeps
  · have hpoll : ∀ r, (.access .rdStatus, r) ∈ trace → r = some 1#32 := fun r hr => by
      obtain ⟨rfl, _⟩ := (hall _ hr).2
      rw [hbusy]
      rfl
    exact ⟨fun _ => hpoll, fun hzero => absurd (hpoll _ hzero) (by decide)⟩
  · exact ⟨fun hnone => absurd rfl (hnone _ hcomplete), fun _ => ⟨⟨r, hcomplete⟩,
      allowed_result_of_idle (b := .published b0.epoch) rfl⟩⟩

/-- Settles O38: a run of reads leaves the registers, which are busy, or publishes. -/
theorem runOfReadsPublishesOnlyItsInput : Obligations.RunOfReadsPublishesOnlyItsInput := by
  intro s t k hbusy hs h
  obtain ht | ht := hs.run_registers h
  · exact .inl ⟨(congrArg Registers.busy ht).trans hbusy, ht⟩
  · exact .inr ht

/-- Settles O6: the offset of an address names the transaction, whose descriptor gives its fields back. -/
theorem windowAddressesNameTransactions : Obligations.WindowAddressesNameTransactions := by
  refine ⟨fun size off v hoff => ?_, fun size addr v houtside => ?_⟩
  · exact ⟨⟨_, read_gccBase_add size hoff, ofByte_toByte _⟩, ⟨_, write_gccBase_add size v hoff, rfl, ofByte_toByte _⟩⟩
  · simp [Transaction.read, Transaction.write, windowOffset_outside houtside]

/-- Settles O22: an access outside the six decodes to no operation, so it raises Unsupported. -/
theorem unsupportedAccessFaults : Obligations.UnsupportedAccessFaults := by
  refine ⟨fun s t rest hm hi hdesc => ?_, fun s off rest hm hi => step_of_inputs_cons hm hi⟩
  obtain ⟨c, hd⟩ := decode_unsupported_of_not_mem hdesc
  rw [step_of_inputs_cons hm hi, ← raiseUnsupported_eq]
  exact performAccess_unsupported hd _

/-- Settles O23: the step the run comes to is the fault of O22, and the longer run stops there. -/
theorem faultIsNeverCleared : Obligations.FaultIsNeverCleared := by
  obtain ⟨haccess, hfetch⟩ := unsupportedAccessFaults
  exact ⟨fun k j s u t rest hrun hm hi hdesc => run_fault j hrun (haccess u t rest hm hi hdesc),
    fun k j s u off rest hrun hm hi => run_fault j hrun (hfetch u off rest hm hi)⟩

/-- Settles O24: a step stops only at its first input, and each input stops in its own way. -/
theorem onlyUnsupportedAccessesStopTheRun : Obligations.OnlyUnsupportedAccessesStopTheRun := by
  refine ⟨fun s f h => ?_, fun s r h => ?_⟩
  · obtain ⟨i, rest, hi, hstep⟩ := step_stops (s := s) (by simp [h])
    obtain ⟨t, rfl, ht⟩ | ⟨off, rfl⟩ := performInput_fault (hstep.symm.trans h)
    · exact .inl ⟨t, rest, hi, ht⟩
    · exact .inr ⟨off, rest, hi⟩
  · obtain ⟨i, rest, hi, hstep⟩ := step_stops (s := s) (by simp [h])
    obtain ⟨b, rfl, hr⟩ := performInput_refused (hstep.symm.trans h)
    exact ⟨b, rest, hi, hr⟩

/-- Settles O26: by what a step does to the inputs, in its two cases. -/
theorem inputsAreTakenInOrder : Obligations.InputsAreTakenInOrder :=
  fun _ _ h => ⟨fun hm => by simpa [hm] using step_inputs h, fun hm => by simpa [hm] using step_inputs h⟩

/-- Settles O4: both sides say that the descriptor is one of the six. -/
theorem supportedAccessesAreTheOperations : Obligations.SupportedAccessesAreTheOperations :=
  fun t => (supported_iff_mem t.desc).trans decode_operation_iff_mem.symm

/-- Settles O7: neighbouring lanes join into wider fields, and the widest is the word. -/
theorem registerIsItsFourLanes : Obligations.RegisterIsItsFourLanes := by
  intro w
  have h₂ : lane w 3 ++ lane w 2 = w.extractLsb' 16 (8 + 8) := BitVec.extractLsb'_append_extractLsb'_eq_extractLsb' rfl
  have h₁ : w.extractLsb' 16 (8 + 8) ++ lane w 1 = w.extractLsb' 8 (8 + 8 + 8) :=
    BitVec.extractLsb'_append_extractLsb'_eq_extractLsb' rfl
  have h₀ : w.extractLsb' 8 (8 + 8 + 8) ++ lane w 0 = w.extractLsb' 0 (8 + 8 + 8 + 8) :=
    BitVec.extractLsb'_append_extractLsb'_eq_extractLsb' rfl
  rw [h₂, h₁, h₀]
  exact BitVec.extractLsb'_eq_self

/-- Settles O16: a read changes the response and the count of draws only. -/
theorem readsHaveNoSideEffect : Obligations.ReadsHaveNoSideEffect := by
  intro i s t hread h
  obtain ⟨v, rfl, _⟩ | ⟨_, v, n, rfl⟩ := exec_cases h
  · cases hread
  · exact ⟨rfl, rfl, rfl, v, rfl⟩

/-- Settles O25: the breach is the first input, and it is refused by its name. -/
theorem breachOfTheWindowObligationsIsRefused : Obligations.BreachOfTheWindowObligationsIsRefused :=
  fun _ _ _ hm hi => step_of_inputs_cons hm hi

/-- Settles O27: COMPLETE moves with no turn left, the operation with one. -/
theorem eitherAgentMayMoveNext : Obligations.EitherAgentMayMoveNext := by
  intro s t rest i hbusy hi hd
  refine ⟨⟨0, if_pos (engineMoves_iff (s := { s with turnsLeft := 0 }) |>.mpr ⟨hbusy, rfl⟩)⟩, 1, 0, ?_⟩
  have hstep := step_of_inputs_cons (s := { s with turnsLeft := 1 }) (by simp [engineMoves]) hi
  refine (hstep.trans (performAccess_operation hd _)).trans ?_
  simp [popInput, passTurn, hi]

end Sys2Proof.Machine

/-! PROOFS. The encoding family: the 40 bits of a transaction, what decoding names, the beats of TIME and DAYINFO, and
the bus statements of the host notation. -/

namespace Sys2Proof.Machine

/-! ### The 40 bits of a transaction -/

/-- A transaction fills its 40 bits (log 8). -/
theorem toBits_lt (t : Transaction) : t.toBits < 2 ^ 40 := by
  have hdesc := t.desc.isLt
  have hwdata := t.wdata.isLt
  unfold Transaction.toBits
  omega

/-- The layout of log 8 loses nothing: a transaction is read back from its bits. -/
theorem ofBits_toBits (t : Transaction) : Transaction.ofBits t.toBits = t := by
  have hdesc := t.desc.isLt
  have hhigh : t.toBits / 2 ^ 8 = t.wdata.toNat := by unfold Transaction.toBits; omega
  have hlow : BitVec.ofNat 8 t.toBits = t.desc := by
    apply BitVec.eq_of_toNat_eq
    rw [BitVec.toNat_ofNat, Transaction.toBits]
    omega
  rw [Transaction.ofBits, hlow, hhigh, BitVec.ofNat_toNat, BitVec.setWidth_eq]

theorem ofTableWord_toBits (t : Transaction) : Transaction.ofTableWord 40 t.toBits = t := by
  rw [Transaction.ofTableWord, Nat.mod_eq_of_lt (toBits_lt t), ofBits_toBits]

/-! ### Decoding -/

/-- A transaction that decodes is the operation's encoding, or a read with the encoding's descriptor, whose W is 0. -/
theorem encode_of_decode {t : Transaction} {i : Instr} (h : decode t = .operation i) :
    encode i = t ∨ ((encode i).desc = t.desc ∧ t.desc.getLsbD 7 = false) := by
  obtain ⟨hdesc, rfl⟩ | ⟨hdesc, rfl⟩ | ⟨hdesc, rfl⟩ | ⟨hdesc, rfl⟩ | ⟨hdesc, rfl⟩ | ⟨hdesc, rfl⟩ :=
    decode_operation_cases h
  case inr.inl => exact .inl (by rw [encode_wrEpoch, ← hdesc])
  all_goals rw [hdesc]; exact .inr ⟨rfl, rfl⟩

/-- An unsupported transaction is named by its descriptor. -/
theorem class_of_decode {t : Transaction} {c : UnsupportedClass} (h : decode t = .unsupported c) :
    c = .ofDescriptor (Descriptor.ofByte t.desc) := by
  unfold decode at h
  split at h
  case h_7 => exact (Decoded.unsupported.inj h).symm
  all_goals cases h

/-- R28's four checks, as facts about the fields. -/
theorem supported_iff {d : Descriptor} : d.supported = true ↔
    d.size = .word ∧ d.offset.toNat % 4 = 0 ∧ d.offset.toNat < 0x14 ∧ (d.write = false ∨ d.offset.toNat = 0) := by
  simp [Descriptor.supported, Descriptor.sizeIsWord, Descriptor.offsetIsAligned, Descriptor.offsetIsRegister,
    Descriptor.accessIsPermitted, and_assoc]

theorem writeToReadOnly_contains_iff {d : Descriptor} : UnsupportedClass.writeToReadOnly.contains d = true ↔
    d.write = true ∧ d.size = .word ∧ d.offset.toNat ∈ [0x04, 0x08, 0x0C, 0x10] := by
  simp [UnsupportedClass.contains, and_assoc]

theorem reservedOffset_contains_iff {d : Descriptor} :
    UnsupportedClass.reservedOffset.contains d = true ↔ 0x14 ≤ d.offset.toNat := by
  have := d.offset.isLt
  simp only [UnsupportedClass.contains, Bool.and_eq_true, decide_eq_true_eq]
  omega

/-- A supported access is in no class of R45. -/
theorem not_contains_of_supported {d : Descriptor} (h : d.supported = true) (c : UnsupportedClass) :
    c.contains d = false := by
  obtain ⟨hsize, haligned, hregister, hpermitted⟩ := supported_iff.mp h
  cases c with
  | writeToReadOnly =>
    rw [← Bool.not_eq_true, writeToReadOnly_contains_iff]
    rintro ⟨hwrite, _, hoffset⟩
    obtain hread | hzero := hpermitted
    · exact absurd (hread.symm.trans hwrite) (by decide)
    · exact absurd (hzero ▸ hoffset) (by decide)
  | reservedOffset =>
    rw [← Bool.not_eq_true, reservedOffset_contains_iff]
    omega
  | misalignedWord => simp [UnsupportedClass.contains, haligned]
  | subWord | reservedSize => simp [UnsupportedClass.contains, hsize]

/-- An unsupported descriptor that the first four rows of R45's table leave out has the reserved size. -/
theorem size_reserved_of_no_class {d : Descriptor} (h : d.supported = false)
    (hnone : ∀ c ∈ [UnsupportedClass.writeToReadOnly, .reservedOffset, .misalignedWord, .subWord],
      c.contains d ≠ true) : d.size = .reserved := by
  cases hsize : d.size with
  | reserved => rfl
  | byte | half => exact absurd (by simp [UnsupportedClass.contains, hsize]) (hnone .subWord (by decide))
  | word =>
    have haligned : d.offset.toNat % 4 = 0 := by
      simpa [UnsupportedClass.contains, hsize] using hnone .misalignedWord (by decide)
    have hregister : d.offset.toNat < 0x14 :=
      Nat.lt_of_not_le (mt reservedOffset_contains_iff.mpr (hnone .reservedOffset (by decide)))
    have hpermitted : d.write = false ∨ d.offset.toNat = 0 := by
      cases hwrite : d.write with
      | false => exact .inl rfl
      | true =>
        have hoffset : d.offset.toNat ∉ [0x04, 0x08, 0x0C, 0x10] := fun hoffset =>
          hnone .writeToReadOnly (by decide) (writeToReadOnly_contains_iff.mpr ⟨hwrite, hsize, hoffset⟩)
        simp only [List.mem_cons, List.not_mem_nil, or_false, not_or] at hoffset
        exact .inr (by omega)
    exact absurd (supported_iff.mpr ⟨hsize, haligned, hregister, hpermitted⟩) (by simp [h])

/-- An unsupported descriptor is in the class it is named by (log 20). -/
theorem contains_ofDescriptor {d : Descriptor} (h : d.supported = false) :
    (UnsupportedClass.ofDescriptor d).contains d = true := by
  unfold UnsupportedClass.ofDescriptor
  cases hfind : List.find? (fun c => c.contains d)
      [UnsupportedClass.writeToReadOnly, .reservedOffset, .misalignedWord, .subWord] with
  | some c => simpa using List.find?_some hfind
  | none =>
    have hsize : d.size = .reserved :=
      size_reserved_of_no_class h (List.find?_eq_none.mp hfind)
    simp [UnsupportedClass.contains, hsize]

/-- The numbers of the six descriptors of R44. -/
def operationNumbers : List Nat := operationDescriptors.map BitVec.toNat

/-- The byte of this number is the descriptor of no operation; the beat plays no part. -/
def unsupportedNumber (n : Nat) : Bool := (decode ⟨BitVec.ofNat 8 n, 0#32⟩).toOption.isNone

/-- A byte is the descriptor of an operation exactly when its number is one of the six. -/
theorem unsupportedNumber_eq_false_iff {n : Nat} (h : n < 256) :
    unsupportedNumber n = false ↔ n ∈ operationNumbers := by
  have hoperation : ∀ d : Decoded, d.toOption.isNone = false ↔ ∃ i, d = .operation i := by
    rintro (i | c) <;> simp [Decoded.toOption]
  rw [unsupportedNumber, hoperation, decode_operation_iff_mem]
  simp [operationDescriptors, operationNumbers, BitVec.toNat_eq, Nat.mod_eq_of_lt h]

/-- The numbers of bytes that are descriptors of operations are the six, in some order. -/
theorem filter_supported_perm :
    ((List.range 256).filter fun n => ¬ unsupportedNumber n = true).Perm operationNumbers := by
  refine (List.perm_ext_iff_of_nodup (List.nodup_range.filter _) (by decide)).mpr fun n => ?_
  simp only [List.mem_filter, List.mem_range, decide_eq_true_eq, Bool.not_eq_true]
  constructor
  · rintro ⟨hlt, hn⟩
    exact (unsupportedNumber_eq_false_iff hlt).mp hn
  · intro hn
    have hlt : n < 256 := (by decide : ∀ n ∈ operationNumbers, n < 256) n hn
    exact ⟨hlt, (unsupportedNumber_eq_false_iff hlt).mpr hn⟩

/-- Of the 256 descriptors all but six are unsupported. -/
theorem length_filter_unsupported : ((List.range 256).filter unsupportedNumber).length = 250 := by
  have hsum := List.length_eq_countP_add_countP unsupportedNumber (l := List.range 256)
  rw [List.length_range, List.countP_eq_length_filter, List.countP_eq_length_filter,
    filter_supported_perm.length_eq, show operationNumbers.length = 6 from rfl] at hsum
  omega

/-! ### The beats of TIME and DAYINFO -/

/-- Where the reserved bits of TIME are 0, a read returns the register (R18, R77). -/
theorem timeBeat_of_reserved {w : Word} (h : w.extractLsb' 24 8 = 0#8) : timeBeat w = w := by
  rw [timeBeat, ← h]
  exact registerIsItsFourLanes w

/-- A word is the fields of DAYINFO and the reserved bits between them (R19). -/
theorem dayinfo_fields (w : Word) :
    w.extractLsb' 25 7 ++ dayinfoYday w ++ w.extractLsb' 9 7 ++ BitVec.ofBool (dayinfoLeap w) ++ w.extractLsb' 3 5 ++
      dayinfoWday w = w := by
  rw [← dayinfoLeap_field, dayinfoYday, dayinfoWday]
  iterate 5 rw [BitVec.extractLsb'_append_extractLsb'_eq_extractLsb' (by rfl)]
  exact BitVec.extractLsb'_eq_self

/-- Where the reserved bits of DAYINFO are 0, a read returns the register (R19, R78). -/
theorem dayinfoBeat_of_reserved {w : Word} (h₂₅ : w.extractLsb' 25 7 = 0#7) (h₉ : w.extractLsb' 9 7 = 0#7)
    (h₃ : w.extractLsb' 3 5 = 0#5) : dayinfoBeat w = w := by
  have hfields := dayinfo_fields w
  rwa [h₂₅, h₉, h₃] at hfields

/-- Where the results hold, RD_TIME of an idle block returns the encoded time of EPOCH. -/
theorem exec_rdTime_of_resultsHold {s : State} (hs : s.ResultsHold) (hidle : s.busy = false) :
    exec .rdTime s = .next { s with rdata := some (encTime (convert s.epoch)) } := by
  rw [exec_rdTime_idle hidle, show s.time = encTime (convert s.epoch) from hs.time hidle, timeBeat_encTime]

/-- Where the results hold, RD_DAYINFO of an idle block returns the encoded day of EPOCH. -/
theorem exec_rdDayinfo_of_resultsHold {s : State} (hs : s.ResultsHold) (hidle : s.busy = false) :
    exec .rdDayinfo s = .next { s with rdata := some (encDayinfo (convert s.epoch)) } := by
  rw [exec_rdDayinfo_idle hidle, show s.dayinfo = encDayinfo (convert s.epoch) from hs.dayinfo hidle,
    dayinfoBeat_encDayinfo]

/-! ### The obligations of the encoding family -/

/-- Settles O1: the 40 bits give the transaction back, and it decodes to its operation. -/
theorem operationsRoundTripThroughTheirBits : Obligations.OperationsRoundTripThroughTheirBits := by
  intro i _
  rw [decodeTableWord, encodeBits, ofTableWord_toBits, decode_encode]
  rfl

/-- Settles O2: only a read, whose W is 0, need not be the encoding whole. -/
theorem decodedTransactionIsTheEncoding : Obligations.DecodedTransactionIsTheEncoding := by
  intro t i h
  obtain heq | ⟨hdesc, hread⟩ := encode_of_decode h
  · exact ⟨congrArg Transaction.desc heq, fun _ => heq⟩
  · exact ⟨hdesc, fun hwrite => absurd (hread.symm.trans hwrite) (by decide)⟩

/-- Settles O3: the six decode by the map, and a descriptor that is none of them to no operation. -/
theorem opcodeMapHasExactlySixDescriptors : Obligations.OpcodeMapHasExactlySixDescriptors :=
  ⟨fun _ => ⟨rfl, rfl, rfl, rfl, rfl, rfl⟩, fun _ _ h => decode_unsupported_of_not_mem h⟩

/-- Settles O5: a transaction is unsupported exactly when R28's checks fail, and then a row of R45's table takes it
in. -/
theorem unsupportedDescriptorsFallInTheirClasses : Obligations.UnsupportedDescriptorsFallInTheirClasses := by
  refine ⟨fun t c h => ?_, fun t i c h => ?_, length_filter_unsupported⟩
  · have hunsupported : (Descriptor.ofByte t.desc).supported = false := by
      rw [← Bool.not_eq_true, supportedAccessesAreTheOperations t]
      simp [h]
    rw [class_of_decode h]
    exact contains_ofDescriptor hunsupported
  · exact not_contains_of_supported ((supportedAccessesAreTheOperations t).mpr ⟨i, h⟩) c

/-- Settles O13: an idle read is the beat of TIME, the register itself where its reserved bits are 0. -/
theorem rdTimeReturnsTheTime : Obligations.RdTimeReturnsTheTime := by
  refine ⟨fun s hidle => exec_rdTime_idle hidle, fun s hidle hreserved => ?_, fun s hbusy => readResult_busy hbusy,
    rfl, fun s hs hidle hepoch => ?_⟩
  · rw [exec_rdTime_idle hidle, timeBeat_of_reserved hreserved]
  · have hvalue : encTime (convert 86399#32) = 0x00173B3B#32 := by decide
    rw [exec_rdTime_of_resultsHold hs hidle, hepoch, hvalue]

/-- Settles O14: an idle read is the beat of DAYINFO, the register itself where its reserved bits are 0. -/
theorem rdDayinfoReturnsTheDayinfo : Obligations.RdDayinfoReturnsTheDayinfo := by
  refine ⟨fun s hidle => ?_, fun s hidle h₂₅ h₉ h₃ => ?_, fun s hbusy => readResult_busy hbusy, rfl,
    fun s hs hidle hepoch => ?_⟩
  · rw [exec_rdDayinfo_idle hidle, dayinfoBeat, ← dayinfoLeap_field]
    rfl
  · rw [exec_rdDayinfo_idle hidle, dayinfoBeat_of_reserved h₂₅ h₉ h₃]
  · have hvalue : encDayinfo (convert 94694399#32) = 0x016D0100#32 := by decide
    rw [exec_rdDayinfo_of_resultsHold hs hidle, hepoch, hvalue]

end Sys2Proof.Machine

namespace Sys2Proof.HostProgram

open Sys2Proof.Machine

/-! ### Bus statements -/

theorem Readable.operation_isRead (r : Readable) : r.operation.isRead = true := by
  cases r <;> rfl

/-- The block as a bus statement's operation finds it: no other input (log 25), and a turn passed (log 18). -/
def System.atStatement (y : System) : State := { y.block with inputs := [], turnsLeft := y.block.turnsLeft - 1 }

/-- A statement that makes an operation's transaction performs the operation, and then its host side. -/
theorem System.step_of_operation {y : System} {i : Instr} {b : State} (hm : engineMoves y.block = false)
    (htransaction : y.statement.transaction y.vars = some (encode i)) (hexec : exec i y.atStatement = .next b) :
    y.step = finish y.statement b.rdata { y with block := b } := by
  have hinputs : y.issue.inputs = [.access (encode i)] := by rw [System.issue, htransaction]; rfl
  have hstep : Machine.step y.issue = .next b := by
    rw [step_of_inputs_cons (s := y.issue) hm hinputs, performInput, performAccess_operation (decode_encode i),
      ← hexec]
    rw [show passTurn (popInput y.issue) = y.atStatement by rw [popInput, hinputs]; rfl]
  simp [System.step, hm, hstep]

/-- Settles O42: the statement's transaction decodes to its operation, which completes, and a read has a response. -/
theorem busStatementsPerformTheirTransaction : Obligations.BusStatementsPerformTheirTransaction := by
  refine ⟨fun y r x hm hst => ?_, fun y e hm hst => ?_⟩
  · obtain ⟨b, hb⟩ := exec_completes r.operation y.atStatement
    obtain ⟨_, _, _, v, hv⟩ := readsHaveNoSideEffect _ _ _ r.operation_isRead hb
    refine ⟨b, v, hb, hv, ?_⟩
    rw [System.step_of_operation hm (by rw [hst]; rfl) hb, hst, hv]
    rfl
  · obtain ⟨b, hb⟩ := exec_completes (.wrEpoch (e.value y.vars)) y.atStatement
    refine ⟨b, hb, ?_⟩
    rw [System.step_of_operation hm (by rw [hst]; rfl) hb, hst]
    rfl

end Sys2Proof.HostProgram

/-! PROOFS. The conversion family: CONVERT as the inverse of TO_EPOCH on the dates of the calendar, and the fields of
its record. -/

namespace Sys2Proof.Machine

/-! ### The two loops on a reachable day -/

theorem isLeap_iff (y : Nat) : isLeap y = true ↔ y % 4 = 0 ∧ (y % 100 ≠ 0 ∨ y % 400 = 0) := by
  simp [isLeap]

/-- A year's months have the days of the year (R53, R56). -/
theorem daysOfMonths_isLeap (year : Nat) : daysOfMonths (isLeap year) 12 = ylen year := daysOfMonths_twelve _

theorem le_daysOfYears (n : Nat) : 365 * n ≤ daysOfYears n := by
  induction n with
  | zero => exact Nat.le_refl _
  | succ n ih =>
    have := ylen_bounds (1970 + n)
    simp only [daysOfYears]
    omega

theorem resolveYear_exits {days : Nat} (h : days ≤ 49710) : (resolveYear days).1 < ylen (resolveYear days).2 :=
  yearLoop_exits (by unfold yearTests; omega)

/-- The days are the whole years before the resolved one and the day of it that is left. -/
theorem resolveYear_accounts (days : Nat) :
    1970 ≤ (resolveYear days).2 ∧ daysOfYears ((resolveYear days).2 - 1970) + (resolveYear days).1 = days := by
  obtain ⟨m, _, hyear, hdays⟩ := yearLoop_accounts yearTests days 0
  change (resolveYear days).2 = 1970 + m at hyear
  rw [hyear, Nat.add_sub_cancel_left]
  exact ⟨Nat.le_add_right _ _, hdays.trans (Nat.zero_add days)⟩

/-- Each year step subtracts at least 365 days, so the reachable days allow 136 of them (R62). -/
theorem resolveYear_steps_le {days : Nat} (h : days ≤ 49710) : (resolveYear days).2 - 1970 ≤ 136 := by
  obtain ⟨_, hdays⟩ := resolveYear_accounts days
  have := le_daysOfYears ((resolveYear days).2 - 1970)
  omega

/-- A day of a year is the whole months before the resolved one, which is one of the 12, and the day of it that is
left. -/
theorem resolveMonth_accounts {year yday : Nat} (h : yday < ylen year) :
    1 ≤ (resolveMonth (isLeap year) yday).2 ∧ (resolveMonth (isLeap year) yday).2 ≤ 12 ∧
      daysOfMonths (isLeap year) ((resolveMonth (isLeap year) yday).2 - 1) + (resolveMonth (isLeap year) yday).1 =
        yday := by
  obtain ⟨m, _, hm, hmonth, hdays⟩ := monthLoop_accounts (isLeap year) monthTests yday 0
  change (resolveMonth (isLeap year) yday).2 = m + 1 at hmonth
  have hne : m ≠ 12 := by
    rintro rfl
    rw [daysOfMonths_isLeap] at hdays
    simp only [daysOfMonths] at hdays
    omega
  rw [hmonth, Nat.add_sub_cancel]
  exact ⟨by omega, by unfold monthTests at hm; omega, hdays.trans (Nat.zero_add yday)⟩

theorem resolveMonth_exits {year yday : Nat} (h : yday < ylen year) :
    (resolveMonth (isLeap year) yday).1 < mlen (resolveMonth (isLeap year) yday).2 (isLeap year) := by
  refine monthLoop_exits (n := 0) ?_
  rw [show 0 + monthTests = 12 from rfl, daysOfMonths_isLeap]
  simpa [daysOfMonths] using h

/-! ### Dates of the calendar -/

/-- A date of the Gregorian calendar from 1970 on (R60, R65). -/
structure IsDate (year month day : Nat) : Prop where
  year_ge : 1970 ≤ year
  month_range : 1 ≤ month ∧ month ≤ 12
  day_range : 1 ≤ day ∧ day ≤ mlen month (isLeap year)

theorem daysOfMonths_pred {leap : Bool} {month : Nat} (h : 1 ≤ month) :
    daysOfMonths leap (month - 1) + mlen month leap = daysOfMonths leap month := by
  obtain ⟨m, rfl⟩ := Nat.exists_eq_add_of_le' h
  rfl

/-- A date lies in its year. -/
theorem IsDate.yday_lt {year month day : Nat} (h : IsDate year month day) :
    daysOfMonths (isLeap year) (month - 1) + (day - 1) < ylen year := by
  have hpred := daysOfMonths_pred (leap := isLeap year) h.month_range.1
  have hmono := daysOfMonths_mono (isLeap year) h.month_range.2
  rw [daysOfMonths_isLeap] at hmono
  have := h.day_range
  omega

/-- Two dates have one number of days only if they are the same: first the year is, then the month and the day. -/
theorem toDays_injective {year month day year' month' day' : Nat} (h : IsDate year month day)
    (h' : IsDate year' month' day') (heq : toDays year month day = toDays year' month' day') :
    year = year' ∧ month = month' ∧ day = day' := by
  have hyear := h.year_ge
  have hyear' := h'.year_ge
  have hmonth := h.month_range
  have hmonth' := h'.month_range
  have hday := h.day_range
  have hday' := h'.day_range
  unfold toDays at heq
  rw [Nat.add_assoc, Nat.add_assoc] at heq
  obtain ⟨hyears, hydays⟩ := daysOfYears_unique (by rw [Nat.add_sub_cancel' hyear]; exact h.yday_lt)
    (by rw [Nat.add_sub_cancel' hyear']; exact h'.yday_lt) heq
  obtain rfl : year = year' := by omega
  obtain ⟨hmonths, hdays⟩ := daysOfMonths_unique
    (by rw [Nat.sub_add_cancel hmonth.1]; omega) (by rw [Nat.sub_add_cancel hmonth'.1]; omega) hydays
  omega

theorem toDays_succ_day {day : Nat} (year month : Nat) (h : 1 ≤ day) :
    toDays year month (day + 1) = toDays year month day + 1 := by
  unfold toDays
  omega

/-- The day after the last of a month is the first of the next. -/
theorem toDays_succ_month {month : Nat} (year : Nat) (h : 1 ≤ month) (hlen : 1 ≤ mlen month (isLeap year)) :
    toDays year (month + 1) 1 = toDays year month (mlen month (isLeap year)) + 1 := by
  have := daysOfMonths_pred (leap := isLeap year) h
  unfold toDays
  rw [Nat.add_sub_cancel]
  omega

/-! ### CONVERT and TO_EPOCH -/

theorem convert_yday_eq (s : Word) :
    (convert s).yday = daysOfMonths (convert s).leap ((convert s).month - 1) + ((convert s).day - 1) := by
  obtain ⟨_, _, hdays⟩ := resolveMonth_accounts (convert_yday_lt_ylen s)
  exact hdays.symm

/-- What CONVERT returns is a date of the calendar. -/
theorem convert_isDate (s : Word) : IsDate (convert s).year (convert s).month (convert s).day := by
  obtain ⟨h1, h12, _⟩ := resolveMonth_accounts (convert_yday_lt_ylen s)
  have hexits := resolveMonth_exits (convert_yday_lt_ylen s)
  exact ⟨(resolveYear_accounts _).1, ⟨h1, h12⟩, Nat.le_add_left _ _, hexits⟩

/-- CONVERT's date has the whole days of the input. -/
theorem toDays_convert (s : Word) :
    toDays (convert s).year (convert s).month (convert s).day = daysOf s.toNat := by
  rw [toDays, Nat.add_assoc, ← convert_leap, ← convert_yday_eq]
  exact (resolveYear_accounts _).2

theorem toEpoch_convert (s : Word) : (convert s).toEpoch = s.toNat := by
  rw [CalendarDateTime.toEpoch, toEpoch, toDays_convert, convert_hour, convert_minute, convert_second]
  unfold daysOf todOf
  omega

theorem convert_injective {s t : Word} (h : convert s = convert t) : s = t :=
  BitVec.eq_of_toNat_eq (by rw [← toEpoch_convert, h, toEpoch_convert])

section Inverse

variable {year month day hour minute second : Nat}

theorem daysOf_toEpoch (hhour : hour ≤ 23) (hminute : minute ≤ 59) (hsecond : second ≤ 59) :
    daysOf (toEpoch year month day hour minute second) = toDays year month day := by
  unfold daysOf toEpoch
  omega

theorem todOf_toEpoch (hhour : hour ≤ 23) (hminute : minute ≤ 59) (hsecond : second ≤ 59) :
    todOf (toEpoch year month day hour minute second) = hour * 3600 + minute * 60 + second := by
  unfold todOf toEpoch
  omega

/-- CONVERT of the TO_EPOCH of a date and time gives them back. -/
theorem convert_of_toEpoch {s : Word} (hdate : IsDate year month day) (hhour : hour ≤ 23) (hminute : minute ≤ 59)
    (hsecond : second ≤ 59) (h : s.toNat = toEpoch year month day hour minute second) :
    ((convert s).year = year ∧ (convert s).month = month ∧ (convert s).day = day) ∧
      (convert s).hour = hour ∧ (convert s).minute = minute ∧ (convert s).second = second := by
  have hdays : daysOf s.toNat = toDays year month day := by rw [h, daysOf_toEpoch hhour hminute hsecond]
  have htod : todOf s.toNat = hour * 3600 + minute * 60 + second := by rw [h, todOf_toEpoch hhour hminute hsecond]
  refine ⟨toDays_injective (convert_isDate s) hdate ((toDays_convert s).trans hdays), ?_⟩
  rw [convert_hour, convert_minute, convert_second, htod]
  omega

end Inverse

/-- February's length (R56). -/
theorem mlen_february (leap : Bool) : mlen 2 leap = if leap then 29 else 28 := by
  cases leap <;> rfl

/-- One second after 23:59:59 it is midnight of the next date. -/
theorem convert_midnight {s : Word} {year month day : Nat} (hs : s.toNat + 1 < 2 ^ 32) (hhour : (convert s).hour = 23)
    (hminute : (convert s).minute = 59) (hsecond : (convert s).second = 59) (hdate : IsDate year month day)
    (hnext : toDays year month day = toDays (convert s).year (convert s).month (convert s).day + 1) :
    ((convert (s + 1#32)).year = year ∧ (convert (s + 1#32)).month = month ∧ (convert (s + 1#32)).day = day) ∧
      (convert (s + 1#32)).hour = 0 ∧ (convert (s + 1#32)).minute = 0 ∧ (convert (s + 1#32)).second = 0 := by
  refine convert_of_toEpoch hdate (by decide) (by decide) (by decide) ?_
  have hinput := toEpoch_convert s
  rw [CalendarDateTime.toEpoch, toEpoch, hhour, hminute, hsecond] at hinput
  have hsucc : (s + 1#32).toNat = s.toNat + 1 := BitVec.toNat_add_of_lt hs
  rw [hsucc, toEpoch, hnext]
  omega

/-! ### Ranges -/

theorem convert_year_le (s : Word) : (convert s).year ≤ 2106 := by
  have := resolveYear_steps_le (daysOf_le s)
  rw [← convert_year] at this
  omega

/-- CONVERT's record is in the ranges of R60. -/
theorem convert_inRange (s : Word) : (convert s).InRange := by
  have hdate := convert_isDate s
  have htod : todOf s.toNat < 86400 := Nat.mod_lt _ (by decide)
  exact
    { year := ⟨hdate.year_ge, convert_year_le s⟩
      month := hdate.month_range
      day := hdate.day_range
      hour := by rw [convert_hour]; omega
      minute := by rw [convert_minute]; omega
      second := by rw [convert_second]; omega
      weekday := Nat.le_of_lt_succ (convert_weekday_lt s)
      leap := rfl
      yday := convert_yday_lt_ylen s }

/-- A month has at most 31 days (R56). -/
theorem mlen_le {month : Nat} (h : month ≤ 12) (leap : Bool) : mlen month leap ≤ 31 :=
  (by decide : ∀ month ≤ 12, ∀ leap, mlen month leap ≤ 31) month h leap

theorem convert_day_le (s : Word) : (convert s).day ≤ 31 :=
  Nat.le_trans (convert_isDate s).day_range.2 (mlen_le (convert_isDate s).month_range.2 _)

/-! ### Fields of DATE and TIME as they are encoded -/

/-- A field that holds a value which fits its width is that value. -/
theorem toNat_of_eq_ofNat {w n : Nat} {x : BitVec w} (h : x = BitVec.ofNat w n) (hn : n < 2 ^ w) : x.toNat = n := by
  rw [h, BitVec.toNat_ofNat, Nat.mod_eq_of_lt hn]

@[simp] theorem dateYear_encDate (r : CalendarDateTime) : dateYear (encDate r) = BitVec.ofNat 16 r.year :=
  append_low _ _

@[simp] theorem dateMonth_encDate (r : CalendarDateTime) : dateMonth (encDate r) = BitVec.ofNat 8 r.month :=
  append_middle _ _ _

@[simp] theorem dateDay_encDate (r : CalendarDateTime) : dateDay (encDate r) = BitVec.ofNat 8 r.day := by
  rw [dateDay, encDate, append_high (b := 16) _ _ _ (by decide)]
  exact BitVec.extractLsb'_append_eq_left

@[simp] theorem timeSecond_encTime (r : CalendarDateTime) : timeSecond (encTime r) = BitVec.ofNat 8 r.second :=
  append_low _ _

@[simp] theorem timeMinute_encTime (r : CalendarDateTime) : timeMinute (encTime r) = BitVec.ofNat 8 r.minute :=
  append_middle _ _ _

@[simp] theorem timeHour_encTime (r : CalendarDateTime) : timeHour (encTime r) = BitVec.ofNat 8 r.hour := by
  rw [timeHour, encTime, append_high (b := 8) _ _ _ (by decide)]
  exact append_middle _ _ _

/-- A read of an encoded TIME returns it whole, so its reserved bits are 0 as the beat's are. -/
theorem encTime_reserved (r : CalendarDateTime) : (encTime r).extractLsb' 24 8 = 0#8 := by
  rw [← timeBeat_encTime, timeBeat_reserved]

/-! ### The obligations of the conversion family -/

/-- Settles O50: CONVERT's date has the days of the input and its time the seconds of the day. -/
theorem convertRoundTrips : Obligations.ConvertRoundTrips := by
  refine ⟨fun s => ⟨toEpoch_convert s, ?_⟩, fun _ _ => convert_injective⟩
  rw [toEpoch_convert]
  rfl

/-- Settles O51: the days and the time of day of the TO_EPOCH leave one date and one time. -/
theorem convertInvertsToEpoch : Obligations.ConvertInvertsToEpoch := by
  intro year month day hour minute second hyear hmonth hmonth' hday hday' hhour hminute hsecond hlt
  have hdate : IsDate year month day := ⟨hyear, ⟨hmonth, hmonth'⟩, hday, hday'⟩
  obtain ⟨⟨hy, hm, hd⟩, hh, hmin, hsec⟩ :=
    convert_of_toEpoch hdate hhour hminute hsecond (toNat_of_eq_ofNat rfl hlt)
  exact ⟨_, rfl, hy, hm, hd, hh, hmin, hsec, by rw [convert_leap, hy]⟩

/-- Settles O45: the loop accounts for the days, and its tests suffice on a reachable number of them. -/
theorem yearLoopResolvesTheYear : Obligations.YearLoopResolvesTheYear := by
  refine ⟨fun days h => ?_, fun _ => ⟨rfl, rfl⟩, by decide⟩
  obtain ⟨hyear, hdays⟩ := resolveYear_accounts days
  exact ⟨resolveYear_exits h, hyear, resolveYear_steps_le h, hdays⟩

/-- Settles O46: the loop accounts for the days, and the 12 months have all days of the year. -/
theorem monthLoopResolvesTheMonth : Obligations.MonthLoopResolvesTheMonth := by
  refine ⟨fun year yday h => ?_, fun _ => ⟨rfl, rfl⟩, by decide, by decide, by decide⟩
  obtain ⟨hge, hle, hdays⟩ := resolveMonth_accounts h
  refine ⟨hge, hle, resolveMonth_exits h, hdays, fun h365 => ?_⟩
  unfold ylen at h
  split at h
  next hleap => exact hleap
  next => omega

/-- Settles O48: by the exit tests of the two loops and the divisions of the time of day. -/
theorem convertStaysInRange : Obligations.ConvertStaysInRange := fun s =>
  ⟨convert_inRange s, (convert_yday_eq s).trans (Nat.add_sub_assoc (convert_isDate s).day_range.1 _).symm⟩

/-- Settles O49: the two ends are computed, and the bounds are those of the loops' results. -/
theorem inputRangeEndsAndLoopBounds : Obligations.InputRangeEndsAndLoopBounds := by
  refine ⟨by decide, by decide, fun s => ⟨convert_year_le s, resolveYear_steps_le (daysOf_le s), ?_⟩⟩
  exact Nat.sub_le_sub_right (convert_isDate s).month_range.2 1

/-- Settles O53: before the last day of February the next midnight is the next day's, and on it that of March 1. -/
theorem februaryRollsOver : Obligations.FebruaryRollsOver := by
  refine ⟨fun s hs hmonth hhour hminute hsecond n hn => ?_, by decide⟩
  subst hn
  obtain ⟨hyear, hrange, hday, hle⟩ := convert_isDate s
  obtain hlt | hlast := Nat.lt_or_eq_of_le hle
  · obtain ⟨⟨hy, hm, hd⟩, hh, hmin, hsec⟩ := convert_midnight hs hhour hminute hsecond
      ⟨hyear, hrange, Nat.le_add_left _ _, hlt⟩ (toDays_succ_day _ _ hday)
    rw [hmonth, mlen_february] at hlt
    refine ⟨hy, hh, hmin, hsec, fun h28 _ => ⟨hm.trans hmonth, by rw [hd, h28]⟩, fun h29 => ?_,
      fun h28 hcommon => ?_⟩
    · split at hlt <;> omega
    · rw [hcommon, if_neg (by decide)] at hlt
      omega
  · obtain ⟨⟨hy, hm, hd⟩, hh, hmin, hsec⟩ := convert_midnight hs hhour hminute hsecond
      (month := 3) (day := 1) ⟨hyear, by decide, Nat.le_refl 1, (by decide : 1 ≤ 31)⟩
      (by rw [hlast, hmonth]; exact toDays_succ_month _ (by decide) (by rw [← hmonth, ← hlast]; exact hday))
    rw [hmonth, mlen_february] at hlast
    refine ⟨hy, hh, hmin, hsec, fun h28 hleap => ?_, fun _ => ⟨hm, hd⟩, fun _ _ => ⟨hm, hd⟩⟩
    rw [hleap, if_pos rfl] at hlast
    omega

/-- Settles O54: every field is a part of its register, and its range fits it. -/
theorem encodersLoseNoField : Obligations.EncodersLoseNoField := by
  refine ⟨fun s => ?_, by decide, by decide, by decide⟩
  obtain ⟨⟨_, hyear⟩, ⟨_, hmonth⟩, _, hhour, hminute, hsecond, _⟩ := convert_inRange s
  have hday := convert_day_le s
  exact ⟨toNat_of_eq_ofNat (dateYear_encDate _) (by omega), toNat_of_eq_ofNat (dateMonth_encDate _) (by omega),
    toNat_of_eq_ofNat (dateDay_encDate _) (by omega), toNat_of_eq_ofNat (timeHour_encTime _) (by omega),
    toNat_of_eq_ofNat (timeMinute_encTime _) (by omega), toNat_of_eq_ofNat (timeSecond_encTime _) (by omega),
    encTime_reserved _, dayinfoWday_encDayinfo_convert s, dayinfoLeap_layout _ _ _,
    dayinfoYday_encDayinfo_convert s, dayinfoLayout_reserved _ _ _⟩

/-- Settles O43: in the input range the years divisible by 100 are 2000 and 2100. -/
theorem leapYearRuleIsGregorian : Obligations.LeapYearRuleIsGregorian := by
  refine ⟨isLeap_iff, fun y hge hle h100 => ?_, by decide, by decide⟩
  obtain rfl | rfl : y = 2000 ∨ y = 2100 := by omega
  · decide
  · decide

/-- Settles O44: the fields are the divisions of the days and the time of day, where 60 divides 86400. -/
theorem timeAndWeekdayFieldsFollowTheDivisions : Obligations.TimeAndWeekdayFieldsFollowTheDivisions := by
  refine fun s => ⟨rfl, rfl, rfl, ?_, rfl, fun t h => congrArg weekdayOf h⟩
  exact Nat.mod_mod_of_dvd _ (by decide)

/-- Settles O47: the lengths by the leap flag, and their sums. -/
theorem monthLengthsSumToTheYear : Obligations.MonthLengthsSumToTheYear :=
  ⟨by decide, daysOfMonths_twelve false, daysOfMonths_isLeap⟩

/-- Settles O52: 604800 seconds are seven days. -/
theorem weekdayHasPeriodOfSevenDays : Obligations.WeekdayHasPeriodOfSevenDays := by
  intro n h
  have hlater : (n + 604800#32).toNat = n.toNat + 604800 :=
    BitVec.toNat_add_of_lt (Nat.lt_of_le_pred (by decide) h)
  rw [convert_weekday, convert_weekday, hlater]
  unfold weekdayOf daysOf
  omega

end Sys2Proof.Machine

/-! PROOFS. The register operations family: what each operation answers, when the engine moves, and how long a
conversion takes once writes stop. -/

namespace Sys2Proof.Machine

/-! ### What each operation answers -/

/-- WR_EPOCH starts a conversion in every state. -/
theorem exec_wrEpoch (v : Word) (s : State) : exec (.wrEpoch v) s = .next (startConversion v s) := rfl

/-- RD_EPOCH answers with EPOCH, busy or not, and changes only the response. -/
theorem exec_rdEpoch (s : State) : exec .rdEpoch s = .next { s with rdata := some s.epoch } := rfl

/-- After a WR_EPOCH the state is the one in which its conversion has started. -/
theorem eq_startConversion_of_exec {v : Word} {s t : State} (h : exec (.wrEpoch v) s = .next t) :
    t = startConversion v s :=
  (Host.Outcome.next.inj h).symm

/-- STATUS zero-extends BUSY (R15). -/
theorem statusBeat_eq (busy : Bool) : statusBeat busy = if busy then 0x00000001#32 else 0x00000000#32 := by
  cases busy <;> rfl

/-- RD_STATUS answers with BUSY zero-extended, and changes only the response. -/
theorem exec_rdStatus (s : State) :
    exec .rdStatus s = .next { s with rdata := some (if s.busy then 0x00000001#32 else 0x00000000#32) } := by
  rw [← statusBeat_eq]
  rfl

/-- A read of a result in a busy state answers with the next free value. -/
theorem exec_result_busy {i : Instr} {s : State} (hi : i ∈ [Instr.rdDate, Instr.rdTime, Instr.rdDayinfo])
    (hbusy : s.busy = true) :
    exec i s = .next { s with rdata := some (Config.any32 s.draws), draws := s.draws + 1 } := by
  simp only [List.mem_cons, List.not_mem_nil, or_false] at hi
  obtain rfl | rfl | rfl := hi <;> exact readResult_busy hbusy

/-- Where the results hold, RD_DATE of an idle block returns the encoded date of EPOCH. -/
theorem exec_rdDate_of_resultsHold {s : State} (hs : s.ResultsHold) (hidle : s.busy = false) :
    exec .rdDate s = .next { s with rdata := some (encDate (convert s.epoch)) } := by
  rw [exec_rdDate_idle hidle, show s.date = encDate (convert s.epoch) from hs.date hidle]

/-- V40: the encoded date of the last input. -/
theorem encDate_convert_last : encDate (convert 0xFFFFFFFF#32) = 0x0702083A#32 := by decide

/-! ### When the engine moves -/

/-- COMPLETE writes the three results and BUSY, and nothing else (R79). -/
theorem complete_eq (s : State) : complete s =
    { s with busy := false, date := encDate (convert s.epoch), time := encTime (convert s.epoch),
             dayinfo := encDayinfo (convert s.epoch) } := rfl

/-- In a busy state with no turns left, a step is COMPLETE. -/
theorem step_of_busy {s : State} (hbusy : s.busy = true) (hturns : s.turnsLeft = 0) : step s = .next (complete s) :=
  if_pos (engineMoves_iff.mpr ⟨hbusy, hturns⟩)

theorem engineMoves_of_idle {s : State} (hidle : s.busy = false) : engineMoves s = false := by
  simp [engineMoves, completeEnabled, hidle]

theorem step_of_not_engineMoves {s : State} (hm : engineMoves s = false) : step s = outsideMoves s := by
  simp [step, hm]

/-- A step performs the operation of an access that is the first input, after a turn has passed (R72). -/
theorem step_of_access {s : State} {t : Transaction} {rest : List Input} {i : Instr} (hm : engineMoves s = false)
    (hi : s.inputs = .access t :: rest) (hd : decode t = .operation i) :
    step s = exec i { s with inputs := rest, turnsLeft := s.turnsLeft - 1 } := by
  rw [step_of_inputs_cons hm hi, performInput, performAccess_operation hd, popInput, hi]
  rfl

/-- The turn that a placed access adds keeps the engine from moving before it (log 1). -/
theorem engineMoves_placeAccess (t : Transaction) (s : State) : engineMoves (placeAccess t s) = false := by
  simp [engineMoves]

/-- A placed access that decodes is performed by the next step, in the state as it stands (log 1). -/
theorem step_placeAccess {t : Transaction} {i : Instr} (s : State) (hd : decode t = .operation i) :
    step (placeAccess t s) = exec i s :=
  step_of_access (engineMoves_placeAccess t s) (placeAccess_inputs s t) hd

/-- A table word that decodes is a transaction that decodes. -/
theorem decode_of_decodeTableWord {nbits w : Nat} {i : Instr} (h : decodeTableWord nbits w = some i) :
    decode (Transaction.ofTableWord nbits w) = .operation i := by
  unfold decodeTableWord at h
  cases hd : decode (Transaction.ofTableWord nbits w) with
  | operation j => rw [hd] at h; rw [Option.some.inj h]
  | unsupported c => rw [hd] at h; cases h

/-! ### The time a conversion takes once writes stop -/

/-- An input that leaves the conversion alone does not stop the machine. -/
theorem performInput_completes {i : Input} (hi : i.leavesConversion = true) (s : State) :
    ∃ t, performInput i s = .next t := by
  cases i with
  | access t =>
    cases hd : decode t with
    | operation j =>
      obtain ⟨u, hu⟩ := exec_completes j (passTurn s)
      exact ⟨u, (performAccess_operation hd _).trans hu⟩
    | unsupported c => simp [Input.leavesConversion, hd] at hi
  | clockGated => exact ⟨s, rfl⟩
  | fetch | reset | powerLoss | breach => cases hi

/-- Where only reads and gated clocks follow, the machine does not stop. -/
theorem State.onlyReadsFollow.step_completes {s : State} (hs : s.onlyReadsFollow) : ∃ t, step s = .next t := by
  refine Classical.byContradiction fun hstops => ?_
  obtain ⟨i, rest, hi, hstep⟩ := step_stops (not_exists.mp hstops)
  exact hstops (hstep ▸ performInput_completes (hs i (hi ▸ List.mem_cons_self)) (popInput s))

/-- An access after which the conversion goes on is a read. -/
theorem isRead_of_leavesConversion {t : Transaction} {i : Instr} (hd : decode t = .operation i)
    (h : (Input.access t).leavesConversion = true) : i.isRead = true := by
  simpa only [Input.leavesConversion, hd] using h

/-- The turns and the inputs that can come before COMPLETE: the bound on the steps to it (log 3, log 13). -/
def State.stepsBeforeComplete (s : State) : Nat := s.turnsLeft + s.inputs.length

/-- Where only reads and gated clocks follow, a step of a busy block is COMPLETE, or it leaves the registers and brings
COMPLETE nearer: it takes a turn or an input. -/
theorem State.onlyReadsFollow.step_nears_complete {s t : State} (hs : s.onlyReadsFollow) (hbusy : s.busy = true)
    (h : step s = .next t) :
    t = complete s ∨ (t.registers = s.registers ∧ t.stepsBeforeComplete < s.stepsBeforeComplete) := by
  unfold State.stepsBeforeComplete
  obtain ⟨_, rfl⟩ | ⟨hm, hi, rfl⟩ | ⟨_, tr, rest, i, hi, hd, hx⟩ | ⟨_, ⟨rest, hi⟩, _⟩ | ⟨_, ⟨rest, hi⟩, rfl⟩ :=
    step_cases h
  · exact .inl rfl
  · have hturns : s.turnsLeft ≠ 0 := fun hzero => by simp [engineMoves_iff.mpr ⟨hbusy, hzero⟩] at hm
    exact .inr ⟨rfl, by simp only [passTurn_turnsLeft, passTurn_inputs]; omega⟩
  · have hread := isRead_of_leavesConversion hd (hs _ (by simp [hi]))
    obtain ⟨hregisters, hinputs, hturns⟩ := exec_read_frame hread hx
    refine .inr ⟨hregisters, ?_⟩
    simp only [hinputs, hturns, hi, passTurn_turnsLeft, passTurn_inputs, popInput_turnsLeft, popInput_inputs,
      List.tail_cons, List.length_cons]
    omega
  · obtain hi | hi := hi <;> cases hs _ (hi ▸ List.mem_cons_self)
  · exact .inr ⟨rfl, by simp [hi]⟩

/-- Where only reads and gated clocks follow, a busy block has published the results of EPOCH within any number of steps
greater than the turns and inputs before COMPLETE. -/
theorem State.onlyReadsFollow.run_publishes {n : Nat} {s : State} (hs : s.onlyReadsFollow) (hbusy : s.busy = true)
    (hn : s.stepsBeforeComplete < n) :
    ∃ k t, k ≤ n ∧ run k s = .next t ∧ t.registers = .published s.epoch := by
  induction n generalizing s with
  | zero => exact absurd hn (Nat.not_lt_zero _)
  | succ n ih =>
    obtain ⟨u, hu⟩ := hs.step_completes
    obtain rfl | ⟨hregisters, hnearer⟩ := hs.step_nears_complete hbusy hu
    · exact ⟨1, complete s, Nat.le_add_left 1 n, run_succ_next hu, rfl⟩
    · have hepoch : u.epoch = s.epoch := congrArg Registers.epoch hregisters
      obtain ⟨k, t, hk, hrun, ht⟩ :=
        ih (hs.of_step hu) ((congrArg Registers.busy hregisters).trans hbusy) (by omega)
      exact ⟨k + 1, t, Nat.succ_le_succ hk, (run_succ_next hu).trans hrun, hepoch ▸ ht⟩

/-! ### Executions of writes alone -/

/-- A WR_EPOCH that leaves the stored results is an allowed event in every state of the block. -/
theorem allowed_wrEpoch (v : Word) (b : Registers) :
    Allowed (.access (.wrEpoch v)) b none { b with epoch := v, busy := true } :=
  ⟨rfl, rfl, rfl⟩

/-- Writes alone are an execution that keeps a busy block busy. -/
theorem exists_busy_execution_of_writes (vs : List Word) {b : Registers} (hbusy : b.busy = true) :
    ∃ b', Execution b (vs.map fun v => (.access (.wrEpoch v), none)) b' ∧ b'.busy = true := by
  induction vs generalizing b with
  | nil => exact ⟨b, .done b, hbusy⟩
  | cons v vs ih =>
    obtain ⟨b', hrest, hbusy'⟩ := ih (b := { b with epoch := v, busy := true }) rfl
    exact ⟨b', .event _ _ _ _ _ _ (allowed_wrEpoch v b) hrest, hbusy'⟩

/-! ### The obligations of the register operations family -/

/-- Settles O39: every step is COMPLETE or takes one of the turns and inputs before it. -/
theorem conversionCompletesOnceWritesStop : Obligations.ConversionCompletesOnceWritesStop := by
  intro s hbusy hs
  obtain ⟨k, t, hk, hrun, ht⟩ := hs.run_publishes hbusy (Nat.lt_succ_self s.stepsBeforeComplete)
  have hholds : t.ResultsHold := by
    rw [State.ResultsHold, ht]
    exact Registers.published_resultsHold s.epoch
  exact ⟨k, t, hk, hrun, congrArg Registers.busy ht, congrArg Registers.epoch ht, hholds⟩

/-- Settles O40: the first write makes the block busy, and the others keep it so. -/
theorem endlessWritesArePromisedNothing : Obligations.EndlessWritesArePromisedNothing := by
  intro b vs
  cases vs with
  | nil => exact ⟨b, .done b, absurd rfl⟩
  | cons v vs =>
    obtain ⟨b', hrest, hbusy⟩ :=
      exists_busy_execution_of_writes vs (b := { b with epoch := v, busy := true }) rfl
    exact ⟨b', .event _ _ _ _ _ _ (allowed_wrEpoch v b) hrest, fun _ => hbusy⟩

/-- Settles O8: the write loads EPOCH, and COMPLETE leaves it. -/
theorem rdEpochReturnsTheLatch : Obligations.RdEpochReturnsTheLatch := by
  refine ⟨fun _ => rfl, exec_rdEpoch, exec_rdEpoch State.reset, fun v s t h => ?_⟩
  obtain rfl := eq_startConversion_of_exec h
  exact ⟨exec_rdEpoch _, exec_rdEpoch _⟩

/-- Settles O9: the state after the write has the value in EPOCH, and COMPLETE publishes EPOCH. -/
theorem wrEpochStartsAConversion : Obligations.WrEpochStartsAConversion := by
  refine ⟨fun _ => rfl, fun v s => ⟨_, exec_wrEpoch v s, rfl, rfl, rfl⟩, fun s t h => ?_, fun s t h => ?_⟩
  · obtain rfl := eq_startConversion_of_exec h
    exact (by decide : encDate (convert 951782400#32) = 0x1D0207D0#32)
  · obtain rfl := eq_startConversion_of_exec h
    exact ⟨encDate_convert_last, (by decide : encTime (convert 0xFFFFFFFF#32) = 0x00061C0F#32),
      (by decide : encDayinfo (convert 0xFFFFFFFF#32) = 0x00250000#32)⟩

/-- Settles O10: the write starts a conversion, so the block is busy and a result read draws a free value. -/
theorem wrEpochChangesNothingElse : Obligations.WrEpochChangesNothingElse := by
  refine ⟨exec_wrEpoch, fun v s t h i hi => ?_⟩
  obtain rfl := eq_startConversion_of_exec h
  exact exec_result_busy hi (startConversion_busy s v)

/-- Settles O11: the beat is BUSY zero-extended, and WR_EPOCH sets BUSY. -/
theorem rdStatusReturnsBusyZeroExtended : Obligations.RdStatusReturnsBusyZeroExtended := by
  refine ⟨fun _ => rfl, exec_rdStatus, exec_rdStatus State.reset, fun v s t h => ?_⟩
  obtain rfl := eq_startConversion_of_exec h
  exact exec_rdStatus _

/-- Settles O12: an idle read returns DATE, which is the encoded date of EPOCH where the results hold. -/
theorem rdDateReturnsTheDate : Obligations.RdDateReturnsTheDate := by
  refine ⟨fun s hidle => exec_rdDate_idle hidle, fun s hbusy => exec_result_busy (by decide) hbusy,
    exec_rdDate_idle rfl, fun s hs hidle hepoch => ?_⟩
  rw [exec_rdDate_of_resultsHold hs hidle, hepoch, encDate_convert_last]

/-- Settles O19: the engine moves, and the results published for EPOCH 0 are the reset values. -/
theorem completePublishesTheConversion : Obligations.CompletePublishesTheConversion := by
  obtain ⟨_, _, hdate, htime, hdayinfo⟩ := resetGivesEveryRegisterItsResetValue
  refine ⟨fun s hbusy hturns => step_of_busy hbusy hturns, fun s hbusy hturns hepoch => ?_⟩
  rw [step_of_busy hbusy hturns, complete_eq, hepoch, ← hdate, ← htime, ← hdayinfo]
  rfl

/-- Settles O20: a step of an idle block is the outside's, an idle turn where there is no input. -/
theorem engineIsIdleUnlessBusy : Obligations.EngineIsIdleUnlessBusy := by
  intro s hidle
  have hstep := step_of_not_engineMoves (engineMoves_of_idle hidle)
  refine ⟨hidle, engineMoves_of_idle hidle, hstep, fun hi => ⟨passTurn s, ?_, rfl, rfl⟩⟩
  simp only [hstep, outsideMoves, hi]

/-- Settles O21: a placed table word that decodes is an access that is the first input. -/
theorem stepPerformsTheDecodedOperation : Obligations.StepPerformsTheDecodedOperation :=
  ⟨fun _ _ _ _ hm hi hd => step_of_access hm hi hd,
    fun s _ _ _ h => step_placeAccess s (decode_of_decodeTableWord h)⟩

end Sys2Proof.Machine

/-! PROOFS. The exceptions family: no operation fails (R82), and what loss of power and a gated clock do (R94). -/

namespace Sys2Proof.Machine

/-- The first input of a state taken off, written as the list that follows it. -/
theorem popInput_of_inputs_cons {s : State} {i : Input} {rest : List Input} (hi : s.inputs = i :: rest) :
    popInput s = { s with inputs := rest } := by
  rw [popInput, hi, List.tail_cons]

/-- A loss of power that is the first input resets the block (R94, log 12). -/
theorem step_of_powerLoss {s : State} {rest : List Input} (hm : engineMoves s = false)
    (hi : s.inputs = .powerLoss :: rest) : step s = .next (resetBlock { s with inputs := rest }) := by
  rw [step_of_inputs_cons hm hi, popInput_of_inputs_cons hi, performInput]

/-- A gated clock that is the first input is taken, and nothing else changes (R94, log 13). -/
theorem step_of_clockGated {s : State} {rest : List Input} (hm : engineMoves s = false)
    (hi : s.inputs = .clockGated :: rest) : step s = .next { s with inputs := rest } := by
  rw [step_of_inputs_cons hm hi, popInput_of_inputs_cons hi, performInput]

/-- Settles O15: the reads and the write each answer a next state, also a result read in a busy state. -/
theorem everySupportedOperationCompletes : Obligations.EverySupportedOperationCompletes := exec_completes

/-- Settles O29: the step is what the first input does, and a block that has lost power has the reset values. -/
theorem powerLossResetsAndGatedClockKeepsState : Obligations.PowerLossResetsAndGatedClockKeepsState :=
  ⟨fun _ _ hm hi => ⟨_, step_of_powerLoss hm hi, rfl, rfl⟩, fun _ _ hm hi => step_of_clockGated hm hi⟩

end Sys2Proof.Machine
